-- ==== Sys2Proof/Word.lean ====
section
/-! DEFINITION. The word types of the DL4256 and the names of its fixed index ranges (spec/00 R6, R7 and the table
"Names"). -/

namespace Sys2Proof

/-- One byte of a memory, queue entry or file object (R6). -/
abbrev Byte := BitVec 8

/-- One BAR0 register access (R7). -/
abbrev Word32 := BitVec 32

/-- A 64-bit register, at two consecutive 32-bit offsets (R7). -/
abbrev Word64 := BitVec 64

/-- One Cox table entry or microinstruction (R82, R127). -/
abbrev Entry := BitVec 128

/-- A 256-bit channel mask, bit c for channel c. -/
abbrev ChanMask := BitVec 256

/-- LN00 to LN15. -/
abbrev LaneId := Fin 16

/-- CH000 to CH255. -/
abbrev ChanId := Fin 256

/-- COX000 to COX127. -/
abbrev EngineId := Fin 128

/-- TIM00 to TIM31. -/
abbrev TimId := Fin 32

/-- Trigger groups 0 to 15, and acquisition units 0 to 15. -/
abbrev GroupId := Fin 16

/-- Erzal ports E0 to E4. -/
abbrev PortId := Fin 5

/-- Umpire sources 0 to 95. -/
abbrev SourceId := Fin 96

/-- Queue pair 0 to 255 (R271). -/
abbrev QueueId := Fin 256

end Sys2Proof
end

