-- ==== Sys2Proof/Syntax.lean ====
section
/-! DEFINITION. The commands of the DL4256: one constructor of `Instr` per row of spec/opcode_table.json, with the
operands of that row. A register-write row carries the unit and the value written; a queue-command row carries its
header and the fields of R277; an event row carries what the device observes when the event happens. -/

namespace Sys2Proof

/-- The header of a queue command: its submission queue, its CID, its TARGET and DPTR, the bus address of its data buffer
(R275). -/
structure Hdr where
  sq : QueueId
  cid : BitVec 16
  target : BitVec 6
  dptr : Word64
deriving DecidableEq, Repr

/-- The SEG field of a table entry (R82). -/
structure Seg where
  bind : BitVec 4
  base : BitVec 24
  len : BitVec 20
deriving DecidableEq, Repr

/-- One 32-byte record of TSET_WRITE (R277): channel byte, format byte, six 40-bit edges. -/
structure TsetRec where
  ch : Byte
  fmt : Byte
  dOn : BitVec 40
  dData : BitVec 40
  dRet : BitVec 40
  dOff : BitVec 40
  stbOpen : BitVec 40
  stbClose : BitVec 40
deriving DecidableEq, Repr

/-- The fields of LEVEL_WRITE after LANE (R277): CHMASK, SEL and the thirteen values in index order. -/
structure LevelFields where
  chmask : BitVec 16
  sel : BitVec 16
  vals : List (BitVec 16)
deriving DecidableEq, Repr

/-- The four capture declaration entries of HEAT_START (R144). -/
structure Decl where
  d0 : Word64
  d1 : Word64
  d2 : Word64
  d3 : Word64
deriving DecidableEq, Repr

/-- The pattern registers of R124 in an engine's window. -/
inductive PatReg where
  | apgCfg
  | topo (hi : Bool)
  | scr (i : Fin 48)
  | sym (w : Fin 32)
  | pinmap (c : ChanId)
deriving DecidableEq, Repr

/-- The registers of a geometry descriptor (R171). -/
inductive GeomReg where
  | fields (hi : Bool)
  | cfg
  | dbi (w : Fin 64)
deriving DecidableEq, Repr

/-- The configuration registers of a TIM unit (R191). -/
inductive TimReg where
  | cfg
  | sel
  | count
  | timeout (hi : Bool)
  | ofs
deriving DecidableEq, Repr

/-- The configuration registers of a trigger group (R200, R216). -/
inductive GrpReg where
  | cfg
  | win
  | tims
  | eng (w : Fin 4)
deriving DecidableEq, Repr

/-- The configuration registers of an Umpire source (R311). -/
inductive UmpReg where
  | cfg
  | win
  | timer
deriving DecidableEq, Repr

/-- What an interpolator reports for an external edge (R178): tick count T, phase p and tap code t. -/
structure EdgeObs where
  tick : Nat
  phase : Fin 8
  tap : Fin 32
deriving DecidableEq, Repr

/-- An edge that a TIM input sees of an external source (R172): what its interpolator reports, for which of the source's two
thresholds, and its direction. The edges of the internal sources come with FRAME_START and MARK. -/
structure TimEdge where
  obs : EdgeObs
  low : Bool
  falling : Bool
deriving DecidableEq, Repr

/-- An event flit as a port receives it (R241, R243): which of its two copies had a good CRC, whether it came by
replay, and its fields. -/
structure EvtRx where
  port : PortId
  good1 : Bool
  good2 : Bool
  replayed : Bool
  src : BitVec 6
  ts : BitVec 16
  payload : BitVec 30
deriving DecidableEq, Repr

/-- One context record of the entry list (R323). -/
structure EntryRec where
  perms : Word32
  queues : BitVec 16
  triggers : BitVec 16
  members : Word64
  engines : BitVec 128
  captureQuota : Nat
  sharedQuota : Nat
  vectorQuota : Nat
deriving DecidableEq, Repr

/-- A record that grants everything (R323: FACTORY). -/
def EntryRec.all : EntryRec where
  perms := 0x3FF
  queues := 0xFFFF
  triggers := 0xFFFF
  members := BitVec.allOnes 64
  engines := BitVec.allOnes 128
  captureQuota := 2 ^ 64 - 1
  sharedQuota := 2 ^ 64 - 1
  vectorQuota := 2 ^ 64 - 1

/-- What a data flit carries (R240; the TYPE codes and payloads are the device's own). Commands, their aborts and completions
(R248, R284, R289), a command with the record of the root's entry list that judges it (R324); aperture accesses and their
answers (R269); frame loads (R252); stroke generations, their commits, copies of EZ_STROKE and the grant of a stroke change
(R257, R259); the exchange of a skew survey: the wish for one, its start, the parent's question and the child's timestamps, a
link's result for the child and for the root, and a member's target (R253, R255); IDs that are lost or reachable again (R248,
R249), a new parent (R250), and whether a member has an active heat (R247); and the exchange of a coupled crew (R81, R105, R148,
R264): a member that joins or leaves, the request for admission, a member's answer, the withdrawal, a member's end, the end of
the whole, the question whether a member may resume, and an ABORT; and the claims that end with a context's reset (R287). -/
inductive DataPayload where
  | completion (sq : QueueId) (cid : BitVec 16) (status : Byte) (detail : Word32) (r0 r1 : Word64) (part fcsat : Bool)
  | command (sq : QueueId) (entry : BitVec 512) (rec : EntryRec)
  | abortCmd (sq : QueueId) (cid : BitVec 16)
  | apWrite (ap offset : Nat) (v : Word32)
  | apRead (ap offset : Nat)
  | apDone (ap : Nat)
  | apData (ap : Nat) (v : Word32)
  | frameLoad (frame : BitVec 48) (rawTick : Nat)
  | generation (frame : BitVec 48) (catchOut : Bool) (stroke : Word32)
  | genCommit (number crc : Word32)
  | strokeCopy (v : Word32)
  | strokeGrant (tick : Nat)
  | surveyAsk
  | surveyStart
  | ttAsk
  | ttReport (l : List (Nat × Int × Int))
  | ttResult (d theta : Int)
  | linkTheta (child : BitVec 6) (theta : Option Int)
  | skewTarget (target : Option Int)
  | lost (ids : Word64) (connected : Bool)
  | reach (ids : Word64)
  | reparent (child parent : BitVec 6)
  | heats (active : Bool)
  | coupledJoin (coupling : BitVec 7) (joined : Bool)
  | coupledAdmit (coupling : BitVec 7) (sq : QueueId) (cid start : BitVec 16) (decl : Decl) (rec : EntryRec)
  | coupledAnswer (coupling : BitVec 7) (src : BitVec 6) (status : Byte) (detail : Word32)
  | coupledWithdraw (coupling : BitVec 7)
  | coupledEnd (coupling : BitVec 7) (src : BitVec 6) (status : Byte) (fcsat : Bool)
  | coupledDone (sq : QueueId) (cid : BitVec 16) (status : Byte)
  | coupledResume (coupling : BitVec 7) (lead : BitVec 6)
  | coupledAbort (coupling : BitVec 7) (tick : Nat)
  | freeClaims (ctx : BitVec 4)
  | other
deriving DecidableEq, Repr

/-- A cable between two Erzal ports, as enumeration finds it (R239, R246); devices are numbered as the finder pleases, the root is
0. -/
structure Cable where
  a : Nat
  pa : PortId
  b : Nat
  pb : PortId
deriving DecidableEq, Repr

/-- A packet on the management port (R317): the target address of its SMBus write, whether its PEC is good, whether it is the
first and the last of its message, its packet sequence number (DSP0236), and its share of the message's bytes, those that say
the message type and the vendor taken off. -/
structure SmbPacket where
  addr : BitVec 7
  pecGood : Bool
  first : Bool
  last : Bool
  seq : BitVec 2
  data : List Byte
deriving DecidableEq, Repr

/-- The packets in which a message comes over the management port. -/
abbrev Packets := List SmbPacket

/-- Where a Boathouse message came from (R318). -/
inductive MsgSrc where
  | queue (h : Hdr) (rspLen : BitVec 16) (rspPtr : Word64)
  | mailbox
  | mctp (pkts : Packets)
deriving DecidableEq, Repr

/-- Wake sources (R342). -/
inductive WakeSrc where
  | e0Squelch
  | pcieSquelch
  | tone
  | rail (n : Fin 8) (ev : Fin 4)
deriving DecidableEq, Repr

/-- What a private instruction asks of the internal debug port (R331, R332): to halt the core or let it run, to read its SRAM,
its pc (0) and registers, or the policy store, and to write the first two. The codes are the device's own; `other` stands for
any further use. -/
inductive DebugOp where
  | halt
  | run
  | readSram (addr : BitVec 19)
  | readReg (n : Fin 32)
  | readPolicy (offset : BitVec 20)
  | writeSram (addr : BitVec 19) (v : Byte)
  | writeReg (n : Fin 32) (v : Word32)
  | other (code : Nat)
deriving DecidableEq, Repr

/-- Instructions of the IEEE 1149.1 TAP as R332 divides them. -/
inductive TapInst where
  | bypass
  | idcode
  | extest
  | extestPulse
  | extestTrain
  | debugAccess (op : DebugOp)
  | other
deriving DecidableEq, Repr

/-- The role of a device in a reset of the host link (R266, R290). -/
inductive HostReset where
  | conventional
  | hot
  | flr
deriving DecidableEq, Repr

/-- What a Survey run fits for one DAC of one channel (R235): the DAC by its place in the value order of LEVEL_WRITE, the offset in
uV and the deviation of the gain from 1 in parts per million. -/
structure LevelFit where
  chan : ChanId
  dac : Nat
  offset : Int
  gain : Int
deriving DecidableEq, Repr

/-- The commands of the block, in the order of spec/opcode_table.json. -/
inductive Instr where
  /-- LN_LVL_COMMIT (R41): A write of a channel mask to LN_LVL_COMMIT checks the staged halves of the masked channels and
  applies all of them together or none. -/
  | lnLvlCommit (lane : LaneId) (v : Word32)
  /-- LEVEL_WRITE (R44): A command that commits front-end values carried in the command to the masked channels of one lane. -/
  | levelWrite (h : Hdr) (lane : Byte) (f : LevelFields)
  /-- DAC_SETTLED (R43): The last DAC changed by an applied commit settles, and LN_LVL_STATUS.BUSY returns to 0. -/
  | dacSettled (lane : LaneId)
  /-- ADC_START (R38): A START write to LN_ADC_CTRL begins a lane ADC measurement, or is refused or ignored. -/
  | adcStart (lane : LaneId) (v : Word32)
  /-- ADC_MEASUREMENT_DONE (R37): A lane ADC measurement finishes converting its samples and posts its scaled mean in LN_ADC_RESULT. -/
  | adcMeasurementDone (lane : LaneId) (samples : List Int) (raw : BitVec 18) (overRange : Bool)
  /-- COMPARATOR_EDGE (R33): The pin voltage crosses a threshold and the comparator state of a channel changes between L, M and H. -/
  | comparatorEdge (ch : ChanId) (fine : Fin 512) (uv : Int)
  /-- DRIVER_OVERCURRENT (R47): A driver or termination current above 40 mA persists for 200 ns; the OC bit latches and the
  channel trips when OC_TRIP = 1. -/
  | driverOvercurrent (lane : LaneId) (mask : BitVec 16)
  /-- PMU_OVERCURRENT (R46): An FVMI current held at its 110 % limit for 200 ns latches the channel's OC bit. -/
  | pmuOvercurrent (lane : LaneId) (mask : BitVec 16)
  /-- CLAMP_EVENT (R46): A clamp conducts more than 5 mA for 1 µs and the channel's CLAMP bit latches. -/
  | clampEvent (lane : LaneId) (mask : BitVec 16)
  /-- LN_EVT_STATUS_CLEAR (R47): A W1C write to LN_EVT_STATUS clears latches and returns a tripped channel's driver to its
  active path. -/
  | lnEvtStatusClear (lane : LaneId) (v : Word32)
  /-- TSET_WRITE (R69): A command that checks and writes one timing set on every channel of a crew. -/
  | tsetWrite (h : Hdr) (engine tset mux : Byte) (n : BitVec 16) (period : Word64) (recs : List TsetRec)
  /-- TSET_TAKES_EFFECT (R71): An accepted TSET_WRITE to a RUNNING crew takes effect at the crew's next granule boundary. -/
  | tsetTakesEffect (e : EngineId)
  /-- TESTER_CYCLE (R53): A crew plays one tester cycle: start accumulated, edges placed, strobes judged and results fanned out. -/
  | testerCycle (e : EngineId)
  /-- GRANULE_BOUNDARY (R76): A crew reaches a granule boundary, and each channel steps its applied activity level. -/
  | granuleBoundary (e : EngineId)
  /-- ACTIVITY_WINDOW_END (R75): A 64-tick window ends and the lane's transition count gives a new measured level. -/
  | activityWindowEnd (lane : LaneId)
  /-- LN_ACT_CTRL_WRITE (R78): A write to LN_ACT_CTRL changes the activity compensation enable, or is ignored during a heat. -/
  | lnActCtrlWrite (lane : LaneId) (v : Word32)
  /-- LN_TSR_SEL_WRITE (R79): A write to LN_TSR_SEL takes a snapshot of one timing set of one channel. -/
  | lnTsrSelWrite (lane : LaneId) (v : Word32)
  /-- LN_TAP_SEL_WRITE (R79): A write to LN_TAP_SEL takes a snapshot of one tap-table entry. -/
  | lnTapSelWrite (lane : LaneId) (v : Word32)
  /-- DECISION_POINT (R83): A PLAY-class entry ends and the resolved link takes effect, evaluating its late condition sampled at S. -/
  | decisionPoint (e : EngineId) (ecc : Option (BitVec 12))
  /-- SEGMENT_FETCH (R95): Rows of a segment or prefetch target arrive from the lane's HBM vector channel. -/
  | segmentFetch (e : EngineId) (bind : Fin 16) (gran : BitVec 24) (ue : Bool)
  /-- NOP (R86): An entry with no effect that continues at the next entry. -/
  | nop (e : EngineId)
  /-- HALT (R86): An entry that ends the heat with its result tag when its condition is true. -/
  | halt (e : EngineId) (cond flg ctr : Byte) (imm : Word32)
  /-- PLAY (R86): An entry that plays a segment once. -/
  | play (e : EngineId) (seg : Seg)
  /-- PLAYN (R86): An entry that plays a segment IMM times as one PLAY-class entry. -/
  | playn (e : EngineId) (imm : Word32) (seg : Seg)
  /-- IDLE (R86): An entry that plays IMM granules of idle cycles. -/
  | idle (e : EngineId) (imm : Word32)
  /-- JMP (R86): An entry that continues at TGT. -/
  | jmp (e : EngineId) (tgt : BitVec 16)
  /-- JIF (R86): An entry that continues at TGT when its condition is true. -/
  | jif (e : EngineId) (cond flg ctr : Byte) (tgt : BitVec 16)
  /-- CALL (R86): An entry that pushes the next address and continues at TGT. -/
  | call (e : EngineId) (tgt : BitVec 16)
  /-- RET (R86): An entry that pops an address from the stack and continues there. -/
  | ret (e : EngineId)
  /-- LOOP (R86): An entry that loads and activates a loop counter with its body start. -/
  | loop (e : EngineId) (ctr : Byte) (imm : Word32)
  /-- ENDL (R86): An entry that decrements an active loop counter and branches back to the body start or ends the loop. -/
  | endl (e : EngineId) (ctr : Byte)
  /-- MATCH (R96): An entry that replays a segment until its condition has occurred and become visible. -/
  | matchEntry (e : EngineId) (cond flg ctr : Byte) (imm : Word32) (seg : Seg)
  /-- MATCH_ITERATIONS_EXHAUSTED (R96): A MATCH reaches IMM iterations and ends with MATCHED false unless its condition became
  visible there. -/
  | matchIterationsExhausted (e : EngineId)
  /-- WAIT (R98): An entry that plays idle granules until its late condition is visible or it times out. -/
  | waitEntry (e : EngineId) (cond flg ctr : Byte) (imm : Word32) (tgt : BitVec 16)
  /-- BAR (R99): An entry that arrives at a barrier group and plays idle granules until the barrier completes or it times out. -/
  | barEntry (e : EngineId) (ctr : Byte) (imm : Word32) (tgt : BitVec 16)
  /-- WAIT_BAR_TIMEOUT (R98): A WAIT or BAR reaches IMM granules without continuing and execution continues at TGT. -/
  | waitBarTimeout (e : EngineId)
  /-- APGRUN (R86): An entry that runs the APG microprogram from TGT for SEG.len granules. -/
  | apgrun (e : EngineId) (tgt : BitVec 16) (len : BitVec 20)
  /-- APGLD (R86): An entry that loads one APG register from IMM. -/
  | apgld (e : EngineId) (ctr : Byte) (imm : Word32)
  /-- SETF (R100): An entry that sets an engine, device or regatta flag. -/
  | setf (e : EngineId) (ctr : Byte)
  /-- CLRF (R100): An entry that clears an engine, device or regatta flag. -/
  | clrf (e : EngineId) (ctr : Byte)
  /-- ARM (R86): An entry by which the arm-master engine arms a trigger group. -/
  | arm (e : EngineId) (ctr : Byte)
  /-- FIRE (R86): An entry by which a member engine fires a trigger group with the regatta time of D. -/
  | fire (e : EngineId) (ctr : Byte)
  /-- CAPT (R87): An entry that selects the crew's capture mode and window from D onward. -/
  | capt (e : EngineId) (ctr : Byte) (imm : Word32) (bind : BitVec 4)
  /-- MARK (R86): An entry that sends a MARK record to the Log stream. -/
  | mark (e : EngineId) (imm : Word32)
  /-- LDC (R86): An entry that loads a loop counter without changing its active bit. -/
  | ldc (e : EngineId) (ctr : Byte) (imm : Word32)
  /-- SYM (R86): An entry that selects a symbol bank from D onward. -/
  | sym (e : EngineId) (ctr : Byte)
  /-- COUPLED_PEER_FAULT (R102): A coupled member faults with COUPLED_PEER at the first granule boundary at least 384 ticks
  after a peer's reset or SAFE entry. -/
  | coupledPeerFault (e : EngineId)
  /-- COX_CTRL_RESET (R103): A write of COX_CTRL.RESET performs a per-engine reset. -/
  | coxCtrlReset (e : EngineId) (v : Word32)
  /-- HEAT_LAUNCH (R104): An admitted heat starts cycle 0 on the chosen tick and its first link takes effect. -/
  | heatLaunch (e : EngineId) (ecc : Option (BitVec 12))
  /-- HOLD_TAKES_EFFECT (R105): A requested hold takes effect at the first granule boundary at least L ticks of played time
  after the request. -/
  | holdTakesEffect (e : EngineId)
  /-- HEAT_RESUME_TICK (R105): A held heat resumes playing on its resume tick with the fu phase of R55. -/
  | heatResumeTick (e : EngineId)
  /-- DEVICE_FLAG_APPLY (R100): A device flag change is applied 16 ticks after its D or its host write. -/
  | deviceFlagApply
  /-- REGATTA_FLAG_APPLY (R100): A regatta flag change is applied on the common tick 320 ticks after its instant. -/
  | regattaFlagApply
  /-- COX_DFLAGS_SET (R100): A host write that sets device flags. -/
  | coxDflagsSet (e : EngineId) (v : Word64)
  /-- COX_DFLAGS_CLR (R100): A host write that clears device flags. -/
  | coxDflagsClr (e : EngineId) (v : Word64)
  /-- COX_RFLAGS_SET (R100): A host write that sets regatta flags. -/
  | coxRflagsSet (e : EngineId) (v : Word32)
  /-- COX_RFLAGS_CLR (R100): A host write that clears regatta flags. -/
  | coxRflagsClr (e : EngineId) (v : Word32)
  /-- COX_TBL_SEL_WRITE (R107): A write to COX_TBL_SEL takes a snapshot of one table entry or microinstruction. -/
  | coxTblSelWrite (e : EngineId) (v : Word32)
  /-- COX_CFG_WRITE (R107): A write to COX_CFG changes the idle timing set and barrier groups, or is ignored while the engine
  is RUNNING or HELD. -/
  | coxCfgWrite (e : EngineId) (v : Word32)
  /-- COX_BIND_WRITE (R114): A write to a binding register, ignored with IGNORED set while the engine is RUNNING or HELD. -/
  | coxBindWrite (e : EngineId) (b : Fin 16) (v : Word32)
  /-- PATTERN_CONFIG_WRITE (R124): A write to the symbol banks, pin map, COX_APG_CFG, COX_TOPO or scrambler registers, ignored
  or refused as R124 states. -/
  | patternConfigWrite (e : EngineId) (r : PatReg) (v : Word32)
  /-- TABLE_LOAD (R106): A command that loads table or microprogram entries and fills the rest of the space. -/
  | tableLoad (h : Hdr) (engine space : Byte) (first count : BitVec 16) (data : List Entry)
  /-- TABLE_PATCH (R106): A command that writes only the named table or microprogram entries. -/
  | tablePatch (h : Hdr) (engine space : Byte) (first count : BitVec 16) (data : List Entry)
  /-- SEGMENT_WRITE (R122): A command that writes whole granules of a VECTOR region. -/
  | segmentWrite (h : Hdr) (handle first count : Word32) (data : List Byte)
  /-- REGION_ALLOC (R373): A command that allocates a VECTOR, CAPTURE or SHARED region. -/
  | regionAlloc (h : Hdr) (kind map m : Byte) (size : Word64) (mask : ChanMask)
  /-- REGION_FREE (R143): A command that frees a region and makes its handle stale. -/
  | regionFree (h : Hdr) (handle : Word32)
  /-- REGION_ZEROING_DONE (R147): The zeroing of a freed CAPTURE region's memory ends and the memory is added to FC_CAP_FREE. -/
  | regionZeroingDone (handle : Word32)
  /-- REGION_READ (R143): A command that reads bytes of a region into a host buffer. -/
  | regionRead (h : Hdr) (handle : Word32) (offset length : Word64)
  /-- REGION_WRITE (R143): A command that writes bytes from a host buffer into a region. -/
  | regionWrite (h : Hdr) (handle : Word32) (offset length : Word64) (data : List Byte)
  /-- HEAT_START (R145): A command that launches a heat after the admission checks. -/
  | heatStart (h : Hdr) (engine : Byte) (start : BitVec 16) (decl : Decl)
  /-- HEAT_ADMISSION (R278): A HEAT_START waiting in an engine's launch queue is admitted once the heat before it has completed. -/
  | heatAdmission (e : EngineId)
  /-- HEAT_COMPLETION (R149): A heat's completion entry is written after every capture write has landed, releasing its rating
  and vector charge. -/
  | heatCompletion (e : EngineId)
  /-- CAPTURE_WRITE_LANDED (R142): A bitmap update, FIRSTN record or RAW row of an admitted heat lands in the fail partition. -/
  | captureWriteLanded (e : EngineId) (ue : Bool) (hbm : Fin 32)
  /-- RAW_WINDOW_END (R158): A RAW window reaches its G granules and its header is written. -/
  | rawWindowEnd (e : EngineId)
  /-- FC_CNT_CLR (R139): A write to FC_CNT_CLR clears the fail counters of the named lanes. -/
  | fcCntClr (v : Word32)
  /-- FC_DRAIN_REQ (R161): A write to FC_DRAIN_REQ sets DRAIN_PENDING on a FILLED region, or sets DRAIN_REFUSED. -/
  | fcDrainReq (v : Word32)
  /-- FC_GEOM_WRITE (R156): A write to a geometry descriptor register, ignored when in use or refused when invalid. -/
  | fcGeomWrite (g : GroupId) (r : GeomReg) (v : Word32)
  /-- DRAIN_START (R162): The drain engine takes the oldest FILLED window with DRAIN_PENDING and reserves drive space. -/
  | drainStart
  /-- DRAIN_DONE (R162): A drain finishes writing and flushing its object, zeroes the window and sends its notice. -/
  | drainDone
  /-- FAILSTORE_READ (R169): A command that decrypts a byte range of a Fail Store object's logical image. -/
  | failstoreRead (h : Hdr) (handle : Word32) (offset length : Word64) (bad : Option Nat)
  /-- FAILSTORE_MERGE (R169): A command that creates an object ORing 2 to 8 compatible source objects. -/
  | failstoreMerge (h : Hdr) (n : Byte) (handles : List Word32)
  /-- MERGE_DONE (R169): A merge on the drain engine finishes writing its merged object. -/
  | mergeDone (bad : Bool)
  /-- FAILSTORE_FREE (R170): A command that deallocates an object's blocks and makes its handle stale. -/
  | failstoreFree (h : Hdr) (handle : Word32)
  /-- NVME_DRIVE_ERROR (R164): A Fail Store drive reports an error or goes offline, aborting any drain and raising Umpire
  source 40 + k. -/
  | nvmeDriveError (k : Fin 4) (status : BitVec 16) (offline : Bool)
  /-- NVME_PORT_ONLINE (R166): An NVMe port finishes training and its drive becomes ONLINE or UNSUPPORTED. -/
  | nvmePortOnline (k : Fin 4) (usable : Bool) (bytes : Word64) (speed : BitVec 4) (width : BitVec 3)
  /-- TIM_SETUP (R174): A command that writes a claimed TIM unit's configuration and may arm it. -/
  | timSetup (h : Hdr) (unit arm : Byte) (cfg sel count : Word32) (timeout : Word64) (ofs : Word32)
  /-- TIM_ARM (R175): A TIM_CTRL ARM write moves an IDLE unit to WAIT_GATE. -/
  | timArm (u : TimId)
  /-- TIM_DISARM (R175): A TIM_CTRL DISARM write returns the unit to IDLE, cancelling a started measurement. -/
  | timDisarm (u : TimId)
  /-- TIM_CONFIG_WRITE (R174): A write to TIM_CFG, TIM_SEL, TIM_COUNT, TIM_TIMEOUT or TIM_OFS, ignored unless the unit is IDLE
  and not held by calibration. -/
  | timConfigWrite (u : TimId) (r : TimReg) (v : Word32)
  /-- TIM_GATE_CHANGE (R173): The sampled gate of a unit changes, moving it between WAIT_GATE and ARMED. -/
  | timGateChange (u : TimId) (balls : BitVec 4)
  /-- TIM_START_EDGE (R175): A counted start edge latches the start time and starts the timeout counter. -/
  | timStartEdge (u : TimId) (edge : TimEdge)
  /-- TIM_STOP_EDGE (R175): A stop edge at or after the start gives an OK result and a TIM event. -/
  | timStopEdge (u : TimId) (edge : TimEdge)
  /-- TIM_TIMEOUT (R176): A started measurement's timeout expires with result status TIMEOUT. -/
  | timTimeout (u : TimId)
  /-- TIM_DEAD_TIME_END (R175): The 16 ticks of dead time after a result end and the unit returns to ARMED or WAIT_GATE. -/
  | timDeadTimeEnd (u : TimId)
  /-- TIM_RES_STAT_READ (R182): A read of TIM_RES_STAT takes a snapshot of the unit's latest result. -/
  | timResStatRead (u : TimId)
  /-- REFCLK_LOST (R187): Four expected REFCLK edges are missing; the device declares loss, switches to holdover and requests holds. -/
  | refclkLost
  /-- REFCLK_RETURN_RECOGNISED (R190): One millisecond of good REFCLK edges ends and the PLL starts to relock. -/
  | refclkReturnRecognised
  /-- PLL_RELOCKED (R190): The PLL relocks to REFCLK, ending the reference-loss span. -/
  | pllRelocked
  /-- TRG_GRP_ARM (R195): An ARM write to TRG_GRPg_CTRL arms a host- or engine-mastered group. -/
  | trgGrpArm (g : GroupId)
  /-- TRG_GRP_DISARM (R195): A DISARM write to TRG_GRPg_CTRL returns an ARMED group to IDLE. -/
  | trgGrpDisarm (g : GroupId)
  /-- TRG_GRP_CFG_WRITE (R200): A write to a group's configuration, ignored unless DISABLED or IDLE, with clearing EN accepted
  in every state. -/
  | trgGrpCfgWrite (g : GroupId) (r : GrpReg) (v : Word32)
  /-- TRIG_IN_EDGE (R193): The selected edge on TRIG_IN fires groups that have it as a member. -/
  | trigInEdge (rising : Bool)
  /-- FIRE_COMMIT (R196): At t_f + 320 ticks every device commits the decided fire and the group becomes DEAD. -/
  | fireCommit (g : GroupId)
  /-- REARM_INSTANT_KNOWN (R198): The latest done instant of all devices becomes known and the group returns to IDLE. -/
  | rearmInstantKnown (g : GroupId)
  /-- TRIG_OUT_PULSE (R199): TRIG_OUT rises on the tick holding t_f + DELAY. -/
  | trigOutPulse
  /-- TRIG_OUT_PULSE_END (R199): TRIG_OUT falls after WIDTH ticks. -/
  | trigOutPulseEnd
  /-- TRG_OUT_CFG_WRITE (R199): A write to TRG_OUT_CFG, refused when DELAY is below 320. -/
  | trgOutCfgWrite (v : Word32)
  /-- ACQ_SETUP (R205): A command that configures a claimed acquisition unit and may arm it. -/
  | acqSetup (h : Hdr) (unit arm : Byte) (cfg pre post count region level hyst : Word32)
  /-- ACQ_ARM (R205): An ARM write to TRG_ACQk_CTRL arms an acquisition unit into WAIT_ADC. -/
  | acqArm (k : GroupId)
  /-- ACQ_START (R201): A START write to TRG_ACQk_CTRL triggers a unit in PRE. -/
  | acqStart (k : GroupId)
  /-- ACQ_STOP (R201): A STOP write to TRG_ACQk_CTRL ends the record early or returns the unit to IDLE. -/
  | acqStop (k : GroupId)
  /-- ACQ_ADC_FREE (R201): The lane ADC becomes free and a waiting unit enters PRE. -/
  | acqAdcFree (k : GroupId)
  /-- ACQ_SAMPLE (R202): An output sample interval of 800·2^K ticks ends and the averaged sample is stored. -/
  | acqSample (k : GroupId) (convs : List Int)
  /-- ACQ_POST_COMPLETE (R201): A unit records its POST samples and enters CLOSE. -/
  | acqPostComplete (k : GroupId)
  /-- LOG_PACKET_ENTER (R210): A finished packet enters the Log intake with the next sequence number. -/
  | logPacketEnter
  /-- LOG_INTAKE_TO_BANK (R210): The intake feeds its oldest packet into the filling bank. -/
  | logIntakeToBank
  /-- LOG_BANK_SWAP (R211): The draining bank is empty and the filling bank holds MIN read words, so the banks swap and
  packets commit. -/
  | logBankSwap
  /-- LOG_SWAP_TIMEOUT (R211): A packet has waited TIMEOUT µs with the draining bank empty and the banks swap. -/
  | logSwapTimeout
  /-- LOG_READ (R214): A read of LOG_READ takes the next read word from the draining bank, or the idle word. -/
  | logRead (dword count : Nat)
  /-- LOG_LOST_PKTS_READ (R212): A read of LOG_LOST_PKTS returns and clears the discarded packet count. -/
  | logLostPktsRead
  /-- LOG_LOST_WORDS_READ (R212): A read of LOG_LOST_WORDS returns and clears the discarded word count. -/
  | logLostWordsRead
  /-- LANE_TEMP_READ (R220): The lane temperature is read each millisecond, which can start a round and retry deferred items. -/
  | laneTempRead (lane : LaneId) (t : BitVec 16)
  /-- INTERPOLATED_TABLE_INSTALL (R222): An interpolated table is installed whole at the item's first safe instant. -/
  | interpolatedTableInstall (lane : LaneId) (item : Fin 19)
  /-- CAL_ITEM_START (R223): Calibration claims an item's spare or TIM and begins the item, or defers it. -/
  | calItemStart (lane : LaneId)
  /-- HANDOVER_SHADOW_START (R224): At a granule boundary the spare or channel starts shadowing the other path. -/
  | handoverShadowStart (lane : LaneId)
  /-- HANDOVER_SWITCH (R225): A drive or strobe path switches to or from the spare at its first switch instant. -/
  | handoverSwitch (lane : LaneId) (fu : Nat)
  /-- VERNIER_MEASUREMENT_DONE (R228): A code-density measurement completes and the item passes, fails or is spared. -/
  | vernierMeasurementDone (lane : LaneId) (item : Fin 19) (h1 h2 : List Nat)
  /-- SLOT_FLASH_SAVE (R221): Hot-written temperature slots are saved to flash at most once per minute. -/
  | slotFlashSave
  /-- CAL_REQUEST (R236): A command that requests calibration rounds on named lanes. -/
  | calRequest (h : Hdr) (lanes : BitVec 16)
  /-- CAL_REQ (R236): A write to CAL_REQ starts rounds on the named lanes without a completion. -/
  | calReq (v : Word32)
  /-- CAL_DT_WRITE (R237): A write to CAL_DT sets the temperature trigger or is refused. -/
  | calDtWrite (v : Word32)
  /-- SURVEY_RUN_END (R234): A Survey run ends, applies passing corrections and the device returns to DOCK. -/
  | surveyRunEnd (vref : Int) (fits : List LevelFit) (adcFits : List (Int × Int)) (adcFail : BitVec 16)
  /-- EZ_DATA_FLIT (R240): A data flit is received whole on an Erzal link, checked and consumed or forwarded. -/
  | ezDataFlit (p : PortId) (flit : BitVec 512) (pl : DataPayload)
  /-- EZ_REPLAY_TIMEOUT (R240): 1 µs passes without acknowledgement and the sender replays from the first unacknowledged flit. -/
  | ezReplayTimeout (p : PortId)
  /-- EZ_LINK_DOWN (R245): A link goes DOWN after 8 replays or 1 µs of lost lock and starts retraining. -/
  | ezLinkDown (p : PortId)
  /-- EZ_LINK_TRAINED (R239): An Erzal link completes training and comes UP. -/
  | ezLinkTrained (p : PortId) (lanes : Fin 4) (farId : BitVec 6) (farPort : BitVec 3)
  /-- EZ_EVT_EASYALL (R261): An EASYALL event flit is received, applied and flooded. -/
  | ezEvtEasyall (rx : EvtRx)
  /-- EZ_EVT_FIRE (R194): A FIRE event flit is received and recorded for its group. -/
  | ezEvtFire (rx : EvtRx)
  /-- EZ_EVT_ARM (R195): An ARM or disarm event flit is received and judged against the arm master. -/
  | ezEvtArm (rx : EvtRx)
  /-- EZ_EVT_DONE (R198): A DONE event flit carrying a device's done instant is received. -/
  | ezEvtDone (rx : EvtRx)
  /-- EZ_EVT_RFLAG (R242): An RFLAG event flit carrying a regatta flag change is received. -/
  | ezEvtRflag (rx : EvtRx)
  /-- EZ_EVT_CREW (R263): A CREW event flit for a coupling number is received. -/
  | ezEvtCrew (rx : EvtRx)
  /-- EZ_EVT_HOLD (R264): A HOLD event flit with cause REF_ABSENT or STROKE_CHANGE is received. -/
  | ezEvtHold (rx : EvtRx)
  /-- EZ_EVT_ROLE (R250): A ROLE event flit carrying a request, grant or refusal is received. -/
  | ezEvtRole (rx : EvtRx)
  /-- EZ_EVT_TT (R253): A TT request or reply flit of a skew survey is received and timestamped. -/
  | ezEvtTt (rx : EvtRx) (first second : Int)
  /-- EZ_EVT_LINK (R240): A LINK event flit acknowledges or rejects a data flit. -/
  | ezEvtLink (rx : EvtRx)
  /-- EZ_ORDERED_EVENT_APPLY (R244): An ordered event reaches its apply instant and is applied. -/
  | ezOrderedEventApply
  /-- ORPHAN (R249): The UPSTREAM link has been DOWN for 1 µs and the device becomes an orphan. -/
  | orphan
  /-- EZ_CTRL_ENUM (R247): An ENUM write on the root starts enumeration, or is refused while a heat is active. -/
  | ezCtrlEnum
  /-- EZ_CTRL_SURVEY (R255): A SURVEY write starts a regatta-wide skew survey. -/
  | ezCtrlSurvey
  /-- EZ_CTRL_TAKEOVER (R258): A TAKEOVER write on the standby declares the stroke failed. -/
  | ezCtrlTakeover
  /-- ENUMERATION_DONE (R247): Enumeration assigns every ID and ends with the first skew survey. -/
  | enumerationDone (me : Nat) (cables : List Cable)
  /-- SKEW_SURVEY_DONE (R253): A skew survey completes and each member receives its target offset. -/
  | skewSurveyDone
  /-- SKEW_SLEW_STEP (R254): During a heat the applied offset moves 1 fu toward the target every 64 ticks. -/
  | skewSlewStep
  /-- EZ_ROLE_GO (R250): A GO write to EZ_ROLE sends a DIRECTION or STROKE request. -/
  | ezRoleGo (v : Word32)
  /-- ROLE_REQUEST_TIMEOUT (R250): A role request receives no answer within 100 µs and completes TIMEOUT. -/
  | roleRequestTimeout
  /-- FRAME_START (R251): Tick 0 of a frame arrives; the stroke drives CATCH_OUT for 16 ticks. -/
  | frameStart
  /-- CATCH_IN_PULSE (R256): A CATCH_IN arrival is measured against tick 0 and checked for drift. -/
  | catchInPulse (phase : Int)
  /-- CATCH_MISS (R256): A CATCH arrival is missing or more than 4 ticks from tick 0 and is counted. -/
  | catchMiss
  /-- STROKE_GENERATION (R257): Once per millisecond the stroke sends the standby a generation and its commit flit. -/
  | strokeGeneration
  /-- GENERATION_TIMEOUT (R258): 2.5 ms pass at the standby without a complete generation and it declares the stroke failed. -/
  | generationTimeout
  /-- EZ_STROKE_WRITE (R257): A write to EZ_STROKE on the root names the stroke and standby, or is refused. -/
  | ezStrokeWrite (v : Word32)
  /-- EASYALL_RAISE (R261): A RAISE write to EZ_EA_CTRL raises Easy-All and floods an EASYALL event. -/
  | easyallRaise
  /-- EASYALL_CLEAR (R262): A CLEAR write to EZ_EA_CTRL on the root clears Easy-All regatta-wide. -/
  | easyallClear
  /-- EASYALL_N_LOW (R261): EASYALL_N held low for 20 ns raises Easy-All. -/
  | easyallNLow
  /-- EASYALL_IGNORE_END (R262): 1 µs after a clear, EASYALL_N is again watched and a low level raises Easy-All. -/
  | easyallIgnoreEnd (low : Bool)
  /-- HEAT_HOLD (R105): A command that requests a hold of a RUNNING heat. -/
  | heatHold (h : Hdr) (engine : Byte)
  /-- HEAT_RESUME (R105): A command that resumes a resumable HELD heat. -/
  | heatResume (h : Hdr) (engine : Byte)
  /-- ABORT (R289): A command that aborts a target command of its context. -/
  | abort (h : Hdr) (tcid : BitVec 16) (tsq : Byte)
  /-- CREW_MAP (R279): A command that replaces an engine's crew and coupling. -/
  | crewMap (h : Hdr) (engine coupling : Byte) (mask : ChanMask)
  /-- CLAIM (R291): A command that claims a range of resources all or nothing. -/
  | claim (h : Hdr) (kind : Byte) (first count : BitVec 16)
  /-- RELEASE (R291): A command that frees a range of claimed resources. -/
  | release (h : Hdr) (kind : Byte) (first count : BitVec 16)
  /-- LOCK (R293): A command that requests a regatta lock in rank order. -/
  | lock (h : Hdr) (lock : Byte) (timeout : Word32)
  /-- LOCK_GRANT (R293): A waiting LOCK is granted once the lock is free and earlier LOCKs of the context are granted. -/
  | lockGrant (lock : Fin 64)
  /-- LOCK_TIMEOUT (R293): A LOCK is not granted within TIMEOUT µs and completes TIMEOUT. -/
  | lockTimeout (sq : QueueId) (cid : BitVec 16)
  /-- UNLOCK (R294): A command by which the owner frees a lock, optionally clearing SUSPECT. -/
  | unlock (h : Hdr) (lock validate : Byte)
  /-- BARRIER (R280): A command that completes after every earlier command of its context and earlier aperture writes. -/
  | barrier (h : Hdr)
  /-- MODE_SET (R337): A command that requests a device mode transition. -/
  | modeSet (h : Hdr) (mode : Byte)
  /-- COMMAND_FETCH (R273): The device fetches a command from an SQ when its CQ has room and the target has fewer than 4,096
  in flight. -/
  | commandFetch (q : QueueId) (entry : BitVec 512)
  /-- COMMAND_START (R283): A fetched command waiting on FENCE starts once every earlier command of its SQ has completed. -/
  | commandStart (q : QueueId) (cid : BitVec 16)
  /-- COMMAND_COMMIT (R284): A command reaches its commit point and its completion entry is reserved and written. -/
  | commandCommit (q : QueueId) (cid : BitVec 16)
  /-- HQ_SQ_TAIL_WRITE (R272): A tail doorbell write submits commands, or is ignored and sets ERR. -/
  | hqSqTailWrite (q : QueueId) (v : Word32)
  /-- HQ_CQ_HEAD_WRITE (R274): A head doorbell write frees completion entries and re-enables the vector. -/
  | hqCqHeadWrite (q : QueueId) (v : Word32)
  /-- HQ_SQ_CFG_WRITE (R272): A write to HQ_SQi_CFG sets size or enables the SQ, refused without an enabled CQ. -/
  | hqSqCfgWrite (q : QueueId) (v : Word32)
  /-- HQ_CQ_CFG_WRITE (R272): A write to HQ_CQi_CFG sets size, interrupt or enables the CQ. -/
  | hqCqCfgWrite (q : QueueId) (v : Word32)
  /-- HQ_SQ_RESTART (R288): A RESTART write cancels entries up to the tail and clears STOPPED. -/
  | hqSqRestart (q : QueueId)
  /-- HQ_CTX_RESET (R287): A RESET write to HQ_CTX_CTRL resets a context. -/
  | hqCtxReset (c : Fin 16)
  /-- GBL_CTRL_DEV_RESET (R290): A keyed write to GBL_CTRL.DEV_RESET performs a host device reset. -/
  | gblCtrlDevReset (v : Word32)
  /-- HOST_DEVICE_RESET (R290): A PCIe conventional reset, hot reset or FLR resets the root and discards all queues. -/
  | hostDeviceReset (r : HostReset)
  /-- GBL_AP_SEL_WRITE (R269): A write to GBL_APn_SEL selects and enables an aperture, subject to the entry list. -/
  | gblApSelWrite (n : Fin 8) (v : Word32)
  /-- GBL_LOCK_WRITE (R292): A write to GBL_LOCKn sets its rank while the lock is free. -/
  | gblLockWrite (n : Fin 64) (v : Word32)
  /-- APERTURE_READ (R269): A read through a remote aperture is forwarded to the selected member. -/
  | apertureRead (n : Fin 8) (offset : BitVec 22)
  /-- APERTURE_WRITE (R269): A write through a remote aperture is forwarded to the selected member in order. -/
  | apertureWrite (n : Fin 8) (offset : BitVec 22) (v : Word32)
  /-- BAR2_READ (R268): A BAR2 read of a mapped SHARED or CAPTURE region. -/
  | bar2Read (offset : Nat) (length : Nat)
  /-- BAR2_WRITE (R268): A BAR2 write to a mapped SHARED region, ignored elsewhere. -/
  | bar2Write (offset : Nat) (data : List Byte)
  /-- REGISTER_WRITE (R8): A write to a register that has no row of its own, acting per its access codes. -/
  | registerWrite (offset : BitVec 26) (v : Word32)
  /-- UMPIRE_EVENT (R299): A source pair goes from Idle to Event and the Umpire counts it with its detail word. -/
  | umpireEvent (src : SourceId) (detail : Word32)
  /-- WIRE_FAULT (R300): A pair reads Invalid on 3 consecutive samples and its source becomes SEVERE with WIRE set. -/
  | wireFault (src : SourceId) (level : Bool) (cycles : Nat)
  /-- UMPIRE_WINDOW_CLOSE (R301): A source's counting window closes after W and it returns to CLEAR. -/
  | umpireWindowClose (src : SourceId)
  /-- REACTION_TIMER_EXPIRY (R303): A SEVERE source's reaction timer expires and its action is taken. -/
  | reactionTimerExpiry (src : SourceId)
  /-- QUIET_RECOVERY (R302): An ESCALATED source passes its quiet period with no event and returns to CLEAR. -/
  | quietRecovery (src : SourceId)
  /-- UMP_SRC_CLEAR (R304): A CLEAR write acknowledges and clears a source. -/
  | umpSrcClear (src : SourceId)
  /-- UMP_SRC_FORCE (R309): A FORCE write injects one event on a source's pair. -/
  | umpSrcForce (src : SourceId)
  /-- UMP_WIRE_INJ (R310): A GO write holds a source pair invalid for CYCLES cycles, in DIAG only. -/
  | umpWireInj (v : Word32)
  /-- UMP_SRC_CONFIG_WRITE (R311): A write to a source's configuration, ignored in the fault state or refused when invalid. -/
  | umpSrcConfigWrite (src : SourceId) (r : UmpReg) (v : Word32)
  /-- BOATHOUSE_WATCHDOG_EXPIRY (R314): The Boathouse watchdog expires and the core restarts from its active slot. -/
  | boathouseWatchdogExpiry (pc : Word32)
  /-- SENSOR_READ (R313): Each millisecond the Boathouse reads every temperature and supply monitor. -/
  | sensorRead (temps : List (BitVec 16)) (volts currents : List (BitVec 16))
  /-- CROSS_DIE_CHECK (R367): Each millisecond the two front-end dies are compared and LANE_DERATE is raised or ended. -/
  | crossDieCheck (vddh0 vddh1 : BitVec 16)
  /-- GET_INFO (R319): A message that returns identification, status and slot versions. -/
  | getInfo (src : MsgSrc) (body : List Byte)
  /-- READ_SENSORS (R319): A message that returns temperatures and supply readings. -/
  | readSensors (src : MsgSrc) (body : List Byte)
  /-- READ_LOG (R316): A message that returns Boathouse log entries. -/
  | readLog (src : MsgSrc) (body : List Byte)
  /-- UPDATE_ERASE (R320): A message that erases sectors of the inactive slot. -/
  | updateErase (src : MsgSrc) (body : List Byte)
  /-- UPDATE_WRITE (R320): A message that programs erased pages of the inactive slot. -/
  | updateWrite (src : MsgSrc) (body : List Byte)
  /-- UPDATE_VERIFY (R321): A message that checks the inactive slot's signature, digest and SVN. -/
  | updateVerify (src : MsgSrc) (body : List Byte)
  /-- UPDATE_ACTIVATE (R321): A message that makes a VERIFIED slot boot at the next reset. -/
  | updateActivate (src : MsgSrc) (body : List Byte)
  /-- PROPOSE (R327): A message that places a protected-change proposal pending. -/
  | propose (src : MsgSrc) (body : List Byte)
  /-- SIGN (R327): A message that adds a party's signature to the pending proposal. -/
  | sign (src : MsgSrc) (body : List Byte)
  /-- COMMIT (R327): A message that applies the pending proposal when both signatures are held. -/
  | commit (src : MsgSrc) (body : List Byte)
  /-- CANCEL (R327): A message that withdraws the pending proposal. -/
  | cancel (src : MsgSrc) (body : List Byte)
  /-- GET_PROPOSAL (R319): A message that returns the pending proposal. -/
  | getProposal (src : MsgSrc) (body : List Byte)
  /-- PROPOSAL_EXPIRY (R327): A pending proposal expires 600 s after PROPOSE. -/
  | proposalExpiry
  /-- DEBUG_CHALLENGE (R330): A message that returns a random debug challenge. -/
  | debugChallenge (src : MsgSrc) (body : List Byte)
  /-- DEBUG_RESPONSE (R330): A message that unlocks debug with a signed response, or fails. -/
  | debugResponse (src : MsgSrc) (body : List Byte)
  /-- DEBUG_CHALLENGE_EXPIRY (R330): A debug challenge expires 60 s after it was issued. -/
  | debugChallengeExpiry
  /-- DEBUG_LOCK (R330): A message that returns debug to LOCKED. -/
  | debugLock (src : MsgSrc) (body : List Byte)
  /-- SET_PARTY_KEYS (R319): A message that installs party keys in FACTORY. -/
  | setPartyKeys (src : MsgSrc) (body : List Byte)
  /-- SET_ENDPOINT_ID (R317): An MCTP control message that sets the endpoint ID. -/
  | setEndpointId (eid : Byte) (pkts : Packets)
  /-- GET_ENDPOINT_ID (R317): An MCTP control message that returns the endpoint ID. -/
  | getEndpointId (pkts : Packets)
  /-- GET_MCTP_VERSION_SUPPORT (R317): An MCTP control message that returns supported versions. -/
  | getMctpVersionSupport (pkts : Packets)
  /-- GET_MESSAGE_TYPE_SUPPORT (R317): An MCTP control message that returns supported message types. -/
  | getMessageTypeSupport (pkts : Packets)
  /-- GET_VENDOR_DEFINED_MESSAGE_SUPPORT (R317): An MCTP control message that returns vendor-defined message support. -/
  | getVendorDefinedMessageSupport (pkts : Packets)
  /-- TAP_INSTRUCTION_LOAD (R332): An instruction loaded into the JTAG TAP; EXTEST and 1149.6 tests put the device in SAFE. -/
  | tapInstructionLoad (i : TapInst)
  /-- WAKE_DETECTED (R342): An enabled wake source fires in Stop, the tone is forwarded and PWR_EN0 is raised. -/
  | wakeDetected (w : WakeSrc)
  /-- WAKE_DETECTOR_ARMED (R343): Every PG has read low for 1 ms after Stop entry and the wake detectors arm. -/
  | wakeDetectorArmed (present : Option WakeSrc)
  /-- PG_ASSERTED (R344): A PG input rises during a wake sequence. -/
  | pgAsserted (n : Fin 4)
  /-- POWER_GROUP_ENABLE (R344): 100 µs after a PG, the next PWR_EN is raised. -/
  | powerGroupEnable
  /-- PLL_LOCKED (R344): The root PLL locks and BOOT begins with firmware verification. -/
  | pllLocked
  /-- BOOT_COMPLETE (R335): The wake sequence completes and the device leaves BOOT into DOCK or SAFE with READY set. -/
  | bootComplete
  /-- PG_TIMEOUT (R345): A PG has not arrived 10 ms after its PWR_EN and the wake attempt fails. -/
  | pgTimeout
  /-- PLL_LOCK_TIMEOUT (R345): The PLL has not locked 2 ms after PG3 and the wake attempt fails. -/
  | pllLockTimeout
  /-- WAKE_RETRY (R345): 100 ms after a failed attempt a new wake attempt starts. -/
  | wakeRetry
  /-- STOP_ENTRY (R339): 1 ms after a MODE_SET STOP completion the device drops its power enables and enters Stop. -/
  | stopEntry
  /-- PG_LOSS (R340): A PG input falls for 10 µs in Run and the device drops power into Stop. -/
  | pgLoss (n : Fin 4)
  /-- POWER_ON_RESET (R346): VAON rises through 2.9 V and everything resets and runs the wake sequence. -/
  | powerOnReset (snsUv : List Nat)
  /-- VAON_LOSS (R362): VAON is lost in Run and every power group falls. -/
  | vaonLoss
  /-- RESET_N (R346): RESET_N held low for 1 µs in Run resets everything outside the always-on domain. -/
  | resetN
  /-- ROOT_PLL_LOCK_LOSS (R298): The root PLL loses lock while REFCLK is present and raises Umpire source 70. -/
  | rootPllLockLoss
  /-- RAIL_SENSE_EVENT (R348): A rail-sense threshold output flips, latching, interrupting or waking as configured. -/
  | railSenseEvent (n : Fin 8) (uv : Nat)
  /-- RS_SNS_THR_WRITE (R347): A write to RS_SNSn_THR moves thresholds or is refused. -/
  | rsSnsThrWrite (n : Fin 8) (v : Word32)
  /-- RS_CHECK (R349): A write to RS_CHECK starts a forced check of a comparator's thresholds. -/
  | rsCheck (v : Word32)
  /-- RS_CHECK_DONE (R349): A forced check completes and sets UNSETTLED outputs HIGH or LOW. -/
  | rsCheckDone (uv : List Nat)
  /-- RS_READBACK (R350): Every 10 ms, or after a write, threshold DACs are read back and a mismatch raises source 75. -/
  | rsReadback (uv : List Nat)
  /-- REFCLK_RETURNING (R190): After a loss, REFCLK edges reappear and the first edge of a stable run sets RETURNING and
  starts the 1 ms count, which any bad or missing edge restarts. -/
  | refclkReturning
  /-- RESET_N_RELEASE (R346): The RESET_N ball returns high after a reset and BOOT starts on the release. -/
  | resetNRelease
  /-- PCIE_UNCORRECTABLE_ERROR (R298): AER logs a PCIe uncorrectable error on the host link and an event is sent to Umpire
  source 47 with the AER status as detail. -/
  | pcieUncorrectableError (aer : Word32)
  /-- DIE_TO_DIE_INTERFACE_ERROR (R298): An error on the interface to front-end die 0 or 1 raises Umpire source 76 or 77 with
  the lanes affected. -/
  | dieToDieInterfaceError (die : Fin 2) (lanes : BitVec 16)
  /-- PMU_COMPLIANCE (R35): A PMU in FIMV reaches or leaves its voltage limit and LN_PMU_STATUS.COMPLIANCE changes without an
  Umpire event. -/
  | pmuCompliance (ch : ChanId) (limit : Bool)
  /-- UNSETTLED_OUTPUT_SETTLES (R349): The input of an UNSETTLED rail-sense threshold leaves its hysteresis band and the
  output becomes HIGH or LOW without making an event. -/
  | unsettledOutputSettles (n : Fin 8) (uv : Nat)
  /-- EZ_EVT_RESERVED_TYPE (R242): An event flit with a reserved type arrives and is discarded and counted in EZ_Pn_ERRORS. -/
  | ezEvtReservedType (rx : EvtRx)
deriving DecidableEq, Repr

end Sys2Proof
end

