-- ==== Sys2Proof/Decode.lean ====
section
/-! DEFINITION. No row of spec/opcode_table.json gives an encoding in bits: the block is commanded by register accesses,
queue entries and events, so no word spells a command by the table's bits. -/

namespace Sys2Proof

/-- The command that a word of `nbits` bits spells by the table's bits: none, for any word. -/
def decodeTableWord (_nbits _w : Nat) : Option Instr := none

end Sys2Proof
end

