-- ==== Sys2Proof/Config.lean ====
section
/-! DEFINITION. The values the spec leaves open (free values: no body, so no proof can use one). -/

namespace Sys2Proof.Config

/-- The n-th free value of a step whose result the spec does not fix, cut to the width it is used at (log entry 1). -/
opaque freeBits : Nat → BitVec 64

/-- The n-th judgement of a strobe that lies within 24 fu of a drive edge of its own channel in loopback: 0 the level
before the edge, 1 the level after it, 2 the state M (R372, log entry 1). -/
opaque strobeChoice : Nat → Fin 3

/-- Whether the mean of R37 is rounded up when it is not whole: the sum and the count of the samples (log entry 10). -/
opaque adcRoundUp : Int → Nat → Bool

/-- Whether a bin position that lies half-way between two integers is rounded up (R179): numerator and denominator (log
entry 12). -/
opaque binTieUp : Nat → Nat → Bool

/-- The handle index the device proposes for the n-th allocation (R108, R167; log entry 11). -/
opaque handleIndex : Nat → BitVec 20

/-- The BAR2 slot, in units of 2 MiB, that the device proposes for the n-th mapping (R268; log entry 11). -/
opaque bar2Slot : Nat → Nat

/-- How many hits of a vernier histogram span one UI, less one (R228: the spec gives no way to find it; log entry 12). -/
opaque uiHits : List Nat → Nat

/-- How a message is spelled: the TYPE code and the payload of each of its data flits, which are private to the device (R240; log
entry 127). -/
opaque spell : DataPayload → List (Byte × BitVec 448)

/-- Fields of a firmware header (the spec gives no places for them; log entry 22): version, SVN, code length, digest of the
code and signature. -/
opaque imageVersion : List Byte → Word32
opaque imageSvn : List Byte → BitVec 6
opaque imageCodeLen : List Byte → BitVec 24
opaque imageDigest : List Byte → BitVec 384
opaque imageSig : List Byte → BitVec 768

/-- The Bavourn signing key named by the hash in the boot ROM (R312). -/
opaque bavournKey : BitVec 768

/-- The vendor debug key named by the hash in the boot ROM (R330). -/
opaque vendorDebugKey : BitVec 768

/-- The n-th 48-byte random challenge (R330). -/
opaque challenge : Nat → BitVec 384

/-- The n-th key pair of the key store's random source (R328). -/
opaque newKey : Nat → BitVec 512

/-- The fuses that the device key is derived from, and the derivation, with the key epoch (R328). -/
opaque deviceFuses : BitVec 256
opaque deviceKey : (fuses : BitVec 256) → (epoch : BitVec 4) → BitVec 256

/-- A context key as it lies in the policy store, wrapped under a device key (R328: the spec names no wrapping; log entry 146). -/
opaque wrapKey : (device : BitVec 256) → (key : BitVec 512) → BitVec 512

/-- The bytes of firmware slot A as the device is delivered (R315; the spec gives no image; log entry 9). -/
opaque deliveredImage : Nat → Byte

/-- Whether the scope of an unlock opens the internal debug port to an operation (R330, R331: the spec lays the scope's bits out
nowhere; log entry 147). -/
opaque scopeOpens : (scope : Word32) → DebugOp → Bool

/-- Bavourn's JEP106 manufacturer code (R332). -/
opaque jep106 : BitVec 11

/-- The PCI Vendor ID of the device (R317). -/
opaque pciVendorId : BitVec 16

end Sys2Proof.Config
end

