-- ==== Sys2Proof/Machine/Bits.lean ====
section
/-! DEFINITION. Bit fields, byte order (R6), signed fields and saturating counts. -/

namespace Sys2Proof.Machine

/-- Field [lo + w - 1 : lo] of v. -/
def fld {n : Nat} (v : BitVec n) (lo w : Nat) : BitVec w := v.extractLsb' lo w

/-- A field as a number. -/
def fldN {n : Nat} (v : BitVec n) (lo w : Nat) : Nat := (v.extractLsb' lo w).toNat

/-- Bit i of v. -/
def bit {n : Nat} (v : BitVec n) (i : Nat) : Bool := v.getLsbD i

/-- v placed with its bit 0 at bit lo of an n-bit word. -/
def place {w : Nat} (n lo : Nat) (v : BitVec w) : BitVec n := (v.setWidth n) <<< lo

/-- A Boolean as bit lo of an n-bit word. -/
def placeB (n lo : Nat) (b : Bool) : BitVec n := if b then (1#n) <<< lo else 0#n

/-- A number placed at bit lo of an n-bit word. -/
def placeN (n lo x : Nat) : BitVec n := (BitVec.ofNat n x) <<< lo

/-- v with bit i set to b. -/
def setBit {n : Nat} (v : BitVec n) (i : Nat) (b : Bool) : BitVec n :=
  if b then v ||| ((1#n) <<< i) else v &&& ~~~((1#n) <<< i)

/-- v with the field [lo + w - 1 : lo] replaced. -/
def setFld {n w : Nat} (v : BitVec n) (lo : Nat) (x : BitVec w) : BitVec n :=
  (v &&& ~~~(((BitVec.allOnes w).setWidth n) <<< lo)) ||| ((x.setWidth n) <<< lo)

/-- Half `hi` of a 64-bit register replaced by v (R7: bits [31:0] at the lower offset). -/
def setHalf (r : Word64) (hi : Bool) (v : Word32) : Word64 :=
  if hi then setFld r 32 v else setFld r 0 v

/-- Half `hi` of a 64-bit register. -/
def getHalf (r : Word64) (hi : Bool) : Word32 := if hi then fld r 32 32 else fld r 0 32

/-- The n low bytes of x, least significant first (R6). -/
def bytesLE : Nat → Nat → List Byte
  | 0, _ => []
  | n + 1, x => BitVec.ofNat 8 x :: bytesLE n (x / 256)

/-- The number whose bytes are given least significant first (R6). -/
def leNat : List Byte → Nat
  | [] => 0
  | b :: bs => b.toNat + 256 * leNat bs

/-- The number whose bytes are given most significant first (signatures, R326). -/
def beNat (bs : List Byte) : Nat := bs.foldl (fun a b => a * 256 + b.toNat) 0

/-- n bytes of a list from position i, zero past its end. -/
def sliceB (l : List Byte) (i n : Nat) : List Byte := (List.range n).map fun j => l.getD (i + j) 0

/-- x + 1, stopping at the largest value. -/
def satInc {n : Nat} (x : BitVec n) : BitVec n := if x = BitVec.allOnes n then x else x + 1#n

/-- x + k, stopping at the largest value. -/
def satAdd {n : Nat} (x : BitVec n) (k : Nat) : BitVec n :=
  if x.toNat + k ≥ 2 ^ n then BitVec.allOnes n else x + BitVec.ofNat n k

/-- The bits at which w has a 1, cleared in x (W1C, R8). -/
def w1c {n : Nat} (x w : BitVec n) : BitVec n := x &&& ~~~w

/-- A Boolean latch written W1C with bit b. -/
def w1cB (x b : Bool) : Bool := x && !b

/-- Ceiling of a / b. -/
def ceilDiv (a b : Nat) : Nat := (a + b - 1) / b

/-- a / b rounded to nearest, ties away from zero (R202, R222). -/
def roundDiv (a : Int) (b : Nat) : Int :=
  if 0 ≤ a then ((2 * a + b) / (2 * b : Nat)) else -((2 * (-a) + b) / (2 * b : Nat))

/-- The indexes below n at which bit i of v is 1, rising. -/
def bitsOf {w : Nat} (n : Nat) (v : BitVec w) : List Nat := (List.range n).filter fun i => v.getLsbD i

/-- The mask of a list of indexes. -/
def maskOf (w : Nat) (l : List Nat) : BitVec w := l.foldl (fun m i => m ||| ((1#w) <<< i)) 0#w

/-- How many bits of v are 1. -/
def popCount {w : Nat} (v : BitVec w) : Nat := (bitsOf w v).length

/-- One step of the CRC-32 with polynomial 0x04C1_1DB7, least significant bit first. -/
def crc32Step (c : Word32) (b : Bool) : Word32 :=
  let x := (c.getLsbD 0) ^^ b
  let sh := c >>> 1
  if x then sh ^^^ 0xEDB88320 else sh

/-- CRC-32 over bytes, each least significant bit first (R241, R316; log entry 14). -/
def crc32Bytes (l : List Byte) : Word32 :=
  ~~~((l.flatMap fun b => (List.range 8).map fun i => b.getLsbD i).foldl crc32Step 0xFFFFFFFF)

end Sys2Proof.Machine
end

