-- ==== Sys2Proof/Machine/SMap.lean ====
section
/-! DEFINITION. Sparse tables by key, as plain data: a list of key and value pairs with rising keys. A key that is not
listed holds the table's reset value. Byte memories keep one canonical form: no listed byte equals the byte an unlisted
address reads as. -/

namespace Sys2Proof.Machine

/-- A sparse table of α. -/
abbrev SMap (α : Type) := List (Nat × α)

/-- The value at key k, or the reset value `d k`. -/
def SMap.get {α : Type} (d : Nat → α) : SMap α → Nat → α
  | [], k => d k
  | (j, v) :: r, k => if j = k then v else SMap.get d r k

/-- Insert before the first larger key. -/
def SMap.ins {α : Type} : SMap α → Nat → α → SMap α
  | [], k, v => [(k, v)]
  | (j, w) :: r, k, v => if k < j then (k, v) :: (j, w) :: r else (j, w) :: SMap.ins r k v

/-- The table without key k. -/
def SMap.del {α : Type} : SMap α → Nat → SMap α
  | [], _ => []
  | (j, w) :: r, k => if j = k then SMap.del r k else (j, w) :: SMap.del r k

/-- Write v at key k. -/
def SMap.put {α : Type} (m : SMap α) (k : Nat) (v : α) : SMap α := SMap.ins (SMap.del m k) k v

/-- Whether key k is listed. -/
def SMap.has {α : Type} : SMap α → Nat → Bool
  | [], _ => false
  | (j, _) :: r, k => j == k || SMap.has r k

/-- The value at key k, if it is listed. -/
def SMap.get? {α : Type} : SMap α → Nat → Option α
  | [], _ => none
  | (j, v) :: r, k => if j = k then some v else SMap.get? r k

/-- A byte memory (R6): sorted by address, no entry equal to the byte an unlisted address reads as. -/
abbrev Memory := List Host.Cell

/-- The byte at address a; `d` is what an unlisted address reads as. -/
def Memory.read (d : Byte) (m : Memory) (a : Nat) : Byte := SMap.get (fun _ => d) m a

/-- Write one byte and keep the canonical form. -/
def Memory.write (d : Byte) (m : Memory) (a : Nat) (b : Byte) : Memory :=
  if b = d then SMap.del m a else SMap.put m a b

/-- n bytes from address a upward. -/
def Memory.readN (d : Byte) (m : Memory) : Nat → Nat → List Byte
  | _, 0 => []
  | a, n + 1 => Memory.read d m a :: Memory.readN d m (a + 1) n

/-- Write a list of bytes from address a upward. -/
def Memory.writeN (d : Byte) (m : Memory) : Nat → List Byte → Memory
  | _, [] => m
  | a, b :: bs => Memory.writeN d (Memory.write d m a b) (a + 1) bs

/-- The memory without the addresses from a up to, not including, a + n. -/
def Memory.clear (m : Memory) (a n : Nat) : Memory :=
  m.filter fun c => !(decide (a ≤ c.1) && decide (c.1 < a + n))

/-- Every key of the list is above lo, keys rise, and no byte equals d. -/
def Memory.wfFrom (d : Byte) : Option Nat → Memory → Bool
  | _, [] => true
  | lo, (a, b) :: r =>
    (match lo with
      | none => true
      | some l => decide (l < a)) && decide (b ≠ d) && Memory.wfFrom d (some a) r

/-- The canonical form of a memory whose unlisted addresses read as d. -/
def Memory.wf (d : Byte) (m : Memory) : Bool := Memory.wfFrom d none m

end Sys2Proof.Machine
end

