-- ==== Sys2Proof/Machine/TypesCox.lean ====
section
/-! DEFINITION. State of the Cox engines, their heats and APGs (spec/04, spec/05), and of regions, capture and the Fail
Store (spec/06), as plain data. -/

namespace Sys2Proof.Machine

/-- Engine states, in the order of COX_STATE.STATE (R103, R107). -/
inductive EngState where
  | idle
  | loaded
  | running
  | held
  | halted
  | faulted
deriving DecidableEq, Repr

/-- Loop counter (R80): value, active bit, body start, the address of its LOOP entry and the highest address executed
since that LOOP (R106). -/
structure Counter where
  value : Word32
  active : Bool
  body : Nat
  loopAt : Nat
  top : Nat
deriving DecidableEq, Repr

/-- Counters are 0 and inactive (R104). -/
def Counter.reset : Counter := ⟨0, false, 0, 0, 0⟩

/-- The APG registers (R125). -/
structure Apg where
  x : BitVec 24
  y : BitVec 24
  z : Byte
  d0 : Word32
  d1 : Word32
  ix : List (BitVec 24)
  upc : BitVec 10
  flags : Byte
deriving DecidableEq, Repr

/-- All zero at launch (R104). -/
def Apg.reset : Apg := ⟨0, 0, 0, 0, 0, List.replicate 8 0, 0, 0⟩

/-- The engine state that link entries read and write (R86), apart from effects outside the engine. -/
structure EngRegs where
  stack : List Nat
  ctrs : SMap Counter
  eflags : Word32
  apg : Apg
  symBank : BitVec 2
  matched : Bool
deriving DecidableEq, Repr

/-- As a launch leaves them (R104 step 2). -/
def EngRegs.reset : EngRegs := ⟨[], [], 0, Apg.reset, 0, false⟩

/-- An effect of a link entry outside the engine's own registers, applied at the decision point when the whole link has
resolved (R83, R101). -/
inductive LinkFx where
  | devFlag (f : Nat) (on : Bool)
  | regFlag (f : Nat) (on : Bool)
  | arm (g : Nat)
  | fire (g : Nat)
  | capt (addr mode : Nat) (imm : Word32) (bind : Nat)
  | mark (addr : Nat) (imm : Word32)
  | leadCond (k : Nat) (v : Bool)
  | fcsat (v : Bool)
deriving DecidableEq, Repr

/-- A link in resolution (R83, R84): the entry to execute next, how many entries it has executed, whether it has used
its late condition, the engine registers as its entries leave them, the consumed-to instant, its outward effects in
order, the addresses executed, and how many lead values its conditions have read (R93). -/
structure LinkWork where
  pc : Nat
  count : Nat
  late : Bool
  regs : EngRegs
  cons : Option Nat
  fx : List LinkFx
  seen : List Nat
  leads : Nat
deriving DecidableEq, Repr

/-- PLAY-class opcodes (R82). -/
inductive PlayKind where
  | play
  | playn
  | idle
  | matchK
  | wait
  | bar
  | apgrun
deriving DecidableEq, Repr

/-- The PLAY-class entry in play: its kind, address and raw entry, the played instant it started at, and how far
it has come: passes completed (PLAYN
repeats, MATCH iterations), granules completed in the pass, cycles completed in the granule. -/
structure Play where
  kind : PlayKind
  addr : Nat
  entry : Entry
  start : Nat
  pass : Nat
  gran : Nat
  cyc : Nat
deriving DecidableEq, Repr

/-- Where a heat stands between two cycles; `expired` is a WAIT or BAR that has played IMM granules. -/
inductive HeatPhase where
  | waiting
  | cycling
  | boundary
  | decision
  | expired
  | ended
deriving DecidableEq, Repr

/-- The tuple (X, Y, Z, SA) that tags a cycle (R136). -/
structure Tag where
  x : BitVec 24
  y : BitVec 24
  z : Byte
  sa : BitVec 48
deriving DecidableEq, Repr

/-- A requested hold (R105): the instant of played time and the HOLD_CAUSE code. -/
structure HoldReq where
  at_ : Nat
  cause : BitVec 3
deriving DecidableEq, Repr

/-- A RAW window being written (R158): region index, byte offset of its header, granules declared, first cycle, entry
address, regatta tick of its first cycle, rows so far, granules whose rows were all written, whether the granule in
progress has lost a row, whether the header slot fits, and whether a row of it has been played. -/
structure RawWin where
  region : Nat
  base : Nat
  granules : Nat
  first : Nat
  entry : Nat
  start : Nat
  rows : Nat
  written : Nat
  lost : Bool
  headerFits : Bool
deriving DecidableEq, Repr

/-- States of a CAPTURE region (R143). -/
inductive WinState where
  | unbacked
  | clean
  | capturing
  | filled
  | draining
deriving DecidableEq, Repr

/-- How a heat ended (R277): status code, result tag, fault code and address. -/
structure HeatEnd where
  status : Byte
  tag : Word32
  code : Byte
  addr : BitVec 12
deriving DecidableEq, Repr

/-- A TSET_WRITE that waits for the crew's next granule boundary (R71), accepted at regatta time `at_` in fu. -/
structure PendTset where
  at_ : Nat
  sq : QueueId
  cid : BitVec 16
  tset : Nat
  mux : BitVec 2
  period : BitVec 40
  recs : List TsetRec
deriving DecidableEq, Repr

/-- A granule of a region that a fetch has brought (R95, R123): whether an uncorrectable error was met, and its content, the
slices in ascending lane. -/
structure Fetched where
  region : Nat
  gran : Nat
  bad : Bool
  data : List Byte
deriving DecidableEq, Repr

/-- A SUMMARY event of a coupled member (R263): S in regatta ticks, FAIL and FCSAT. At the end of a MATCH iteration a second one for
the same S says what the MATCH needs (log entry 28). -/
structure Summary where
  src : Nat
  s : Nat
  fail : Bool
  fcsat : Bool
deriving DecidableEq, Repr

/-- A heat in progress, from admission to its completion. Played time is in fu from the start of cycle 0 (R53); `bases` holds,
newest first, the played instant from which it serves and the regatta time, in fu, that it gives played time 0, moved on by each
hold (R55). `launchAt`, `resumeAt`, `barAt`, `barLocal` and `barDone` are regatta times in fu: when the barrier was complete on
this device, and on every member. `barPeers` are the members' barrier group and completion. `prevFail` says whether a compare
failed in the MATCH iteration before the present one. `ends` are the decision points of the entry in play that a coupled crew
looks ahead to, in played time, with whether a compare follows their S; `sent` is the last one whose summary has been sent,
`leadSent` how many lead values have gone out for the S in tick `leadAt`, `annFault` whether its fault has been announced.
`begun` says that the granule at whose start the heat stands has begun (R76). `answers` are the members of a coupled heat that
have answered its admission, or its resume while `asking`, `peerEnds` those that have ended theirs; `told` says that a member
has told the lead of its end. `wins` are the windows the heat has taken, with the states they had, and `wrote` those it has
captured into. -/
structure Heat where
  sq : QueueId
  cid : BitVec 16
  ctx : Nat
  start : Nat
  decl : Decl
  rating : Nat
  pr : Nat
  charges : List (Nat × Nat)
  phase : HeatPhase
  bases : List (Nat × Nat)
  cycle : Nat
  next : Nat
  play : Option Play
  link : Option LinkWork
  cons : Option Nat
  fails : List Nat
  iterStrobe : Bool
  iterFail : Bool
  iterLast : Nat
  prevFail : Bool
  occ : Option Nat
  oowAt : List Nat
  fcsatEver : Bool
  hold : Option HoldReq
  abort : Option Nat
  resumeAt : Option Nat
  captImm : Word32
  captBind : Nat
  captLeft : Nat
  raw : Option RawWin
  tags : List Tag
  fetched : List Fetched
  pendTsets : List PendTset
  summaries : List Summary
  leadConds : List (Nat × Bool)
  ends : List (Nat × Bool)
  sent : Option Nat
  leadAt : Nat
  leadSent : Nat
  annFault : Bool
  begun : Bool
  barAt : Option Nat
  barLocal : Option Nat
  barDone : Option Nat
  barPeers : List (Nat × Nat × Nat)
  asking : Bool
  answers : List (Nat × Byte × Word32)
  peerEnds : List (Nat × Byte × Bool)
  launchAt : Option Nat
  told : Bool
  wins : List (Nat × WinState)
  wrote : List Nat
  ended : Option HeatEnd
deriving DecidableEq, Repr

/-- A HEAT_START waiting in an engine's launch queue (R278); `seq` is the order of fetch. -/
structure LaunchReq where
  seq : Nat
  sq : QueueId
  cid : BitVec 16
  start : BitVec 16
  decl : Decl
deriving DecidableEq, Repr

/-- One Cox engine (R80, R107, R137, R171). `peerFaultAt` is the regatta time, in fu, from which a COUPLED_PEER fault is taken at
a granule boundary, `peerDecAt` the decision point at which another member faults (R102). `apgPast` are the APG readbacks of
recent ticks, newest first (R137), `flagHist` the engine flags by the regatta tick they changed on, newest first (R173). `ecc` are
the addresses of table entries that an uncorrectable error keeps from being read (R101). -/
structure Engine where
  st : EngState
  tableValid : Bool
  resumable : Bool
  holdCause : BitVec 3
  epoch : Byte
  crew : ChanMask
  coupled : Bool
  coupling : BitVec 7
  regs : EngRegs
  captMode : BitVec 2
  fcsat : Bool
  pc : BitVec 12
  faultCode : Byte
  faultAddr : BitVec 12
  matchIter : Word32
  cycles : Word64
  launch : Nat
  idleTset : Byte
  barGroups : BitVec 16
  tblSel : Word32
  tblSnap : Entry
  apgCfg : Word32
  topo : Word64
  scr : SMap Word32
  syms : SMap Word32
  pinmap : SMap Word32
  bind : SMap Word32
  pdIgnored : Bool
  pdRefused : Bool
  tsetMismatch : BitVec 16
  table : SMap Entry
  micro : SMap Entry
  oow : Word32
  logcnt : Word32
  heat : Option Heat
  launchQ : List LaunchReq
  peerFaultAt : Option Nat
  peerDecAt : Option Nat
  apgPast : List Apg
  flagHist : List (Nat × Word32)
  ecc : List Nat
deriving DecidableEq, Repr

/-- An engine after reset (R103, R107, R137). -/
def Engine.reset : Engine where
  st := .idle
  tableValid := false
  resumable := false
  holdCause := 0
  epoch := 0
  crew := 0
  coupled := false
  coupling := 0
  regs := EngRegs.reset
  captMode := 0
  fcsat := false
  pc := 0
  faultCode := 0
  faultAddr := 0
  matchIter := 0
  cycles := 0
  launch := 0
  idleTset := 0
  barGroups := 0
  tblSel := 0
  tblSnap := BitVec.allOnes 128
  apgCfg := 0
  topo := 0
  scr := []
  syms := []
  pinmap := []
  bind := []
  pdIgnored := false
  pdRefused := false
  tsetMismatch := 0
  table := []
  micro := []
  oow := 0
  logcnt := 0
  heat := none
  launchQ := []
  peerFaultAt := none
  peerDecAt := none
  apgPast := []
  flagHist := []
  ecc := []

/-- A device or regatta flag change that has been made and not yet applied (R100): the tick it is applied on, the flag's
bit and its new value. Ticks are regatta ticks: the device's flags too change on its tick grid. -/
structure FlagPend where
  at_ : Nat
  bit : Nat
  on : Bool
deriving DecidableEq, Repr

/-- The device and regatta flags (R80, R100). The histories are the model's own: the values and the ticks they were
applied on, newest first. -/
structure Flags where
  dev : Word64
  reg : BitVec 16
  devPend : List FlagPend
  regPend : List FlagPend
  devHist : List (Nat × Word64)
  regHist : List (Nat × BitVec 16)
deriving DecidableEq, Repr

/-- All flags clear (DESIGN CHOICE, log entry 6). -/
def Flags.reset : Flags := ⟨0, 0, [], [], [], []⟩

/-- Region kinds (R108). -/
inductive RegionKind where
  | vector
  | capture
  | shared
deriving DecidableEq, Repr

/-- A geometry descriptor (R153, R171): fields F0 to F3, B and USTRIDE, and DBI words, 0xFFFF_FFFF where unlisted. -/
structure Geom where
  fields : Word64
  cfg : Word32
  dbi : SMap Word32
deriving DecidableEq, Repr

/-- R171. -/
def Geom.reset : Geom := ⟨0, 0, []⟩

/-- A granule that an accepted SEGMENT_WRITE may still have to write (R123): the number of the command, the granule, and what it
held before. -/
structure LateGran where
  cmd : Nat
  gran : Nat
  old : List Byte
deriving DecidableEq, Repr

/-- A region (R108, R109, R143, R268), with its window's capture records (R151, R157, R158, R165, R168). Its bytes are
addressed from 0; a VECTOR region holds the slices of its lanes one after the other, lowest lane first. -/
structure Region where
  live : Bool
  gen : BitVec 12
  kind : RegionKind
  owner : Nat
  mask : ChanMask
  mcode : BitVec 2
  size : Nat
  map : Option Nat
  win : WinState
  drainPending : Bool
  drainSeq : Nat
  geom : Option Geom
  geomMixed : Bool
  partialSrc : Bool
  kindCode : Byte
  wbase : Word32
  lastEngine : Nat
  lastTag : Word32
  recIdx : Nat
  rawPtr : Nat
  mem : Memory
  late : List LateGran
deriving DecidableEq, Repr

/-- No region, at generation 1 of its index. -/
def Region.reset : Region where
  live := false
  gen := 1
  kind := .shared
  owner := 0
  mask := 0
  mcode := 0
  size := 0
  map := none
  win := .unbacked
  drainPending := false
  drainSeq := 0
  geom := none
  geomMixed := false
  partialSrc := false
  kindCode := 3
  wbase := 0
  lastEngine := 0
  lastTag := 0
  recIdx := 0
  rawPtr := 0
  mem := []
  late := []

/-- A capture write on its way to the fail partition (R141, R142): the engine, the region index and its generation, and
the update. -/
inductive CapData where
  | bitmap (word : Nat) (bits : BitVec 256) (g : Geom)
  | bytes (at_ : Nat) (data : List Byte)
deriving DecidableEq, Repr

structure CapWrite where
  engine : Nat
  region : Nat
  gen : BitVec 12
  data : CapData
deriving DecidableEq, Repr

/-- A 4 KiB block of a Fail Store object as a drive holds it (R163): its position in the object's stored sequence, the generation
of the key and the tweak it was encrypted under, and the bytes that decrypting it with both gives back. What the drive
received is `aes256Xts` of them. -/
structure StoredBlock where
  pos : Nat
  key : Nat
  tweak : BitVec 128
  data : Memory
deriving DecidableEq, Repr

/-- A Fail Store object (R167 to R170): header fields, the blocks stored by their number in the window, the generation of the
key that wrote it, the handle generation its blocks are encrypted under, whether it is still being written, and the drives of
its extents. An object freed while a merge reads it is not live, but keeps its extents. -/
structure FsObj where
  live : Bool
  gen : BitVec 12
  owner : Nat
  kind : Byte
  geomMixed : Bool
  partialSrc : Bool
  windowBytes : Nat
  storedBlocks : Nat
  wbase : Word32
  regattaId : Nat
  engine : Nat
  sources : Nat
  tag : Word32
  created : Nat
  geom : Geom
  blocks : SMap StoredBlock
  keyGen : Nat
  storedGen : BitVec 12
  writing : Bool
  extents : List Nat
deriving DecidableEq, Repr

/-- No object, at generation 1 of its index. -/
def FsObj.reset : FsObj where
  live := false
  gen := 1
  owner := 0
  kind := 0
  geomMixed := false
  partialSrc := false
  windowBytes := 0
  storedBlocks := 0
  wbase := 0
  regattaId := 0
  engine := 0
  sources := 0
  tag := 0
  created := 0
  geom := Geom.reset
  blocks := []
  keyGen := 0
  storedGen := 0
  writing := false
  extents := []

/-- Port NVk (R166, R171): STATE code, speed, width, error count and usable bytes. -/
structure Nv where
  state : BitVec 3
  speed : BitVec 4
  width : BitVec 3
  errors : BitVec 16
  cap : Nat
deriving DecidableEq, Repr

/-- R171: STATE 0 is ABSENT. -/
def Nv.reset : Nv := ⟨0, 0, 0, 0, 0⟩

/-- What the drain engine works on (R162, R169): a window, or a merge with its place in the order of work and the command that
asked for it. -/
inductive Job where
  | drain (region : Nat) (obj : Nat)
  | merge (seq : Nat) (sq : QueueId) (cid : BitVec 16) (obj : Nat) (srcs : List Nat)
deriving DecidableEq, Repr

/-- A write to a geometry descriptor (R156): the descriptor, the CK_F cycle, what it held before, whether the write was refused,
and whether it set REFUSED, which was 0 before. -/
structure GeomPast where
  geom : Nat
  cyc : Nat
  old : Geom
  bad : Bool
  first : Bool
deriving DecidableEq, Repr

/-- The FC_ block (R171), with the capture writes not yet landed, the memory still being zeroed (R147) and the drain
engine's jobs in the order they were started. `geomPast` are the writes to descriptors, newest first (R156). -/
structure FailCap where
  ignored : Bool
  refused : Bool
  drainRefused : Bool
  drainBytes : Word64
  hbmUe : Word32
  drainLast : BitVec 96
  geoms : SMap Geom
  geomPast : List GeomPast
  nv : SMap Nv
  queue : List CapWrite
  zeroing : List (Word32 × Nat)
  job : Option Job
  merges : List Job
  drainSeq : Nat
deriving DecidableEq, Repr

/-- R171. -/
def FailCap.reset : FailCap := ⟨false, false, false, 0, 0, 0, [], [], [], [], [], none, [], 0⟩

end Sys2Proof.Machine
end

