-- ==== Sys2Proof/Machine/TypesHost.lean ====
section
/-! DEFINITION. State of the host interface (spec/11), the Umpire (spec/12), the Boathouse (spec/13) and the mode, power
and rail-sense logic (spec/14), as plain data. Instants are in ticks. -/

namespace Sys2Proof.Machine

/-- Device modes, in the order of GBL_MODE.MODE (R22). -/
inductive Mode where
  | stop
  | boot
  | dock
  | run
  | hold
  | survey
  | diag
  | safe
deriving DecidableEq, Repr

/-- The code of a mode (R22). -/
def Mode.code : Mode → Nat
  | .stop => 0
  | .boot => 1
  | .dock => 2
  | .run => 3
  | .hold => 4
  | .survey => 5
  | .diag => 6
  | .safe => 7

/-- Ordering variants (R2). -/
inductive Variant where
  | a1
  | m1
deriving DecidableEq, Repr

/-- Stages of a queue command (R284): waiting for its FENCE, started, sent to the member it targets, decided. A decided command
is past its commit point once a CSN is reserved for it; a WRITTEN command is in flight no longer. -/
inductive Stage where
  | fetched
  | started
  | remote
  | committed
deriving DecidableEq, Repr

/-- What a transfer has moved, as long as an ABORT or a context reset can stop it part-way (R285, R289): bytes to the host's
buffer, bytes of a region with what they replaced, or granules of a segment. -/
inductive Xfer where
  | out (n : Nat)
  | region (i off : Nat) (gen : BitVec 12) (old : List Byte)
  | segment (i first count : Nat) (gen : BitVec 12)
deriving DecidableEq, Repr

/-- A queue command in flight (R273, R281): what it is, its stage, and its completion once decided. `seq` is the order of fetch;
a committed command of a group `order` is written after every earlier one of that group (R286, R287). `engine` is the engine of
an accepted heat, hold or resume, `bar` what a BARRIER still waits for (R280), `quiet` a command cancelled behind a failed one
(R288), `source` the device that executes it, `entry` the record of the entry list under which it was fetched (R325), `raw` the
entry itself (R275). `csn` is the CSN reserved for it at its commit point (R284), and `xfer` what an ABORT can still stop of a
transfer that has been decided. `behind` says that a HEAT_START for another member waits here for an earlier one of its engine
(R278). -/
structure Cmd where
  sq : QueueId
  cid : BitVec 16
  opc : Byte
  target : BitVec 6
  fence : Bool
  seq : Nat
  stage : Stage
  status : Byte
  detail : Word32
  r0 : Word64
  r1 : Word64
  part : Bool
  fcsat : Bool
  suspect : Bool
  order : Nat
  engine : Option Nat
  bar : List Nat
  quiet : Bool
  source : BitVec 6
  entry : EntryRec
  raw : Option (BitVec 512)
  csn : Option Word32
  xfer : Option Xfer
  behind : Bool
deriving DecidableEq, Repr

/-- A host context (R271, R297). -/
structure Ctx where
  epoch : Byte
  resetting : Bool
deriving DecidableEq, Repr

/-- R297. -/
def Ctx.reset : Ctx := ⟨0, false⟩

/-- A queue pair (R272 to R274, R288, R297). `irqDue` says whether the next entry written sends the vector, `failed`
whether a command has failed since the last RESTART or enable, `fullFor` the target with 4,096 commands in flight that the next entry of
the SQ names (R273). -/
structure QPair where
  sqBase : Word64
  sqLog : BitVec 4
  sqEn : Bool
  sqTail : BitVec 12
  sqHead : BitVec 12
  stopped : Bool
  err : Bool
  cancelled : BitVec 16
  cqBase : Word64
  cqLog : BitVec 4
  cqEn : Bool
  irqEn : Bool
  vector : Byte
  cqHead : BitVec 12
  cqTail : BitVec 12
  cqPhase : Bool
  csn : Word32
  irqDue : Bool
  failed : Bool
  cancelTo : Option (BitVec 12)
  fullFor : Option (BitVec 6)
deriving DecidableEq, Repr

/-- R297: LOG2SIZE 4, disabled, phase 1. -/
def QPair.reset : QPair where
  sqBase := 0
  sqLog := 4
  sqEn := false
  sqTail := 0
  sqHead := 0
  stopped := false
  err := false
  cancelled := 0
  cqBase := 0
  cqLog := 4
  cqEn := false
  irqEn := false
  vector := 0
  cqHead := 0
  cqTail := 0
  cqPhase := true
  csn := 0
  irqDue := true
  failed := false
  cancelTo := none
  fullFor := none

/-- A LOCK that waits (R293): its command, context, arrival order and the tick it times out on. -/
structure LockWait where
  sq : QueueId
  cid : BitVec 16
  ctx : Nat
  seq : Nat
  until_ : Nat
deriving DecidableEq, Repr

/-- A regatta lock (R292, R296). Owner 31 is free. -/
structure LockSt where
  owner : Nat
  suspect : Bool
  epoch : Byte
  rank : Byte
  waiters : List LockWait
deriving DecidableEq, Repr

/-- R296: lock n resets with rank n, free. -/
def LockSt.reset (n : Nat) : LockSt := ⟨31, false, 0, BitVec.ofNat 8 n, []⟩

/-- An access that waits at the root for aperture accesses before it (R269): a write or read that has been forwarded to a member,
the read with its answer once that has come, a read of the root itself through an aperture, or a doorbell write. -/
inductive ApAcc where
  | write (ap : Nat) (member : BitVec 6)
  | read (ap : Nat) (member : BitVec 6) (answer : Option Word32)
  | own (ap offset : Nat)
  | sqTail (q : QueueId) (v : Word32)
  | cqHead (q : QueueId) (v : Word32)
deriving DecidableEq, Repr

/-- The configuration state of the root's PCIe function (R266): PowerState, the maximum payload and read request sizes as PCIe
codes them, MSI-X enable and function mask, and the AER uncorrectable error status. The table has no row for a configuration
request (log entry 135). -/
structure PciCfg where
  powerState : BitVec 2
  mps : BitVec 3
  mrrs : BitVec 3
  msixEn : Bool
  msixMask : Bool
  aer : Word32
deriving DecidableEq, Repr

/-- D0, 128-byte payloads, 512-byte read requests, no error logged, and MSI-X enabled (DESIGN CHOICE and PRESUMED, log entry
135). -/
def PciCfg.reset : PciCfg := ⟨0, 0, 2, true, false, 0⟩

/-- A write of PowerState: D0 is taken, any other is ignored (R266). -/
def PciCfg.setPower (p : PciCfg) (v : BitVec 2) : PciCfg := if v = 0 then { p with powerState := 0 } else p

/-- The largest payload, up to 512 bytes, and the largest read request, up to 4,096 bytes (R266). -/
def PciCfg.maxPayload (p : PciCfg) : Nat := min 512 (128 * 2 ^ p.mps.toNat)
def PciCfg.maxRead (p : PciCfg) : Nat := min 4096 (128 * 2 ^ p.mrrs.toNat)

/-- The GBL_ and HQ_ blocks (R296, R297), the claim table (R291; holder 31 is none; key 256·kind + index) and the MSI-X
structures (R267). `lastSq` is the SQ that was fetched from last (R273), `ap` the accesses that wait, in the order in which they
reached the root (R269). -/
structure HostSt where
  ctxs : SMap Ctx
  qps : SMap QPair
  inflight : List Cmd
  fetchSeq : Nat
  lastSq : Nat
  peak : Nat
  claims : SMap Nat
  locks : SMap LockSt
  apSel : SMap Word32
  ap : List ApAcc
  msix : SMap Word32
  msixPend : BitVec 256
  sharedFree : Nat
  pci : PciCfg
deriving DecidableEq, Repr

/-- The states of an Umpire source (R302). -/
inductive SrcState where
  | clear
  | counting
  | severe
  | escalated
deriving DecidableEq, Repr

/-- What a source held before the events of one CK_C cycle, which a clear of that cycle comes before (R304). -/
structure SrcBefore where
  cyc : Nat
  st : SrcState
  count : Byte
  winAt : Nat
  sevAt : Nat
  quietAt : Nat
deriving DecidableEq, Repr

/-- An Umpire source (R299 to R302, R311). The pair is held Invalid on the samples up to CK_C cycle `injTo` by an injection at
level `injLvl` (R310) and up to cycle `wireTo` by its wiring at level `wireLvl` (R299); `bad` and `good` count consecutive
Invalid and valid samples, up to 3. -/
structure UmpSrc where
  st : SrcState
  wire : Bool
  pairP : Bool
  pairN : Bool
  cfg : Word32
  win : Word32
  timer : Word32
  count : Byte
  recoveries : BitVec 16
  last : Word32
  winAt : Nat
  sevAt : Nat
  quietAt : Nat
  injTo : Nat
  injLvl : Bool
  wireTo : Nat
  wireLvl : Bool
  bad : Nat
  good : Nat
  pre : Option SrcBefore
deriving DecidableEq, Repr

/-- The reset threshold and action of each source (R298). -/
def umpCfgReset (n : Nat) : Word32 :=
  let na : Nat × Nat :=
    if n ≤ 15 then (4, 1) else if n ≤ 31 then (16, 0)
    else if n = 34 then (8, 0) else if n = 35 then (1, 2)
    else if n = 57 then (16, 0) else if n = 59 then (1, 2) else if n = 60 then (1, 3)
    else if 61 ≤ n ∧ n ≤ 70 then (1, 2) else if n = 73 then (4, 0)
    else if n = 76 ∨ n = 77 then (1, 2) else (1, 0)
  BitVec.ofNat 32 (na.1 + 256 * na.2 + 2048)

/-- Every source is CLEAR with its reset configuration (R298, R311). -/
def UmpSrc.reset (n : Nat) : UmpSrc where
  st := .clear
  wire := false
  pairP := false
  pairN := true
  cfg := umpCfgReset n
  win := 0x03E803E8
  timer := 0x64
  count := 0
  recoveries := 0
  last := 0
  winAt := 0
  sevAt := 0
  quietAt := 0
  injTo := 0
  injLvl := false
  wireTo := 0
  wireLvl := false
  bad := 0
  good := 3
  pre := none

/-- One history entry before it has its sequence number (R307). -/
structure UmpEntry where
  src : Nat
  kind : Nat
  detail : Word32
  time : Nat
deriving DecidableEq, Repr

/-- The UMP_ block (R311). `hist` holds the entries by index e. `fresh` are the entries of CK_C cycle `cyc`, in their order
(R307), and `hist0`, `next0`, `valid0` and `ovf0` the queue and HIST_OVF before them; `ovfSeen` of them have been acknowledged
by a clear of HIST_OVF. `sevIrq` are the sources that entered SEVERE in that cycle with EN_SEVERE set, each with its vector
(R302, R304). -/
structure UmpSt where
  ignored : Bool
  refused : Bool
  histOvf : Bool
  irq : Word32
  forceDetail : Word32
  wireInj : Word32
  injTo : Nat
  halt : BitVec 128
  hist : SMap (BitVec 128)
  next : BitVec 16
  valid : Nat
  newest : Nat
  cyc : Nat
  fresh : List UmpEntry
  hist0 : SMap (BitVec 128)
  next0 : BitVec 16
  valid0 : Nat
  ovf0 : Bool
  ovfSeen : Nat
  sevIrq : List (Nat × Nat)
deriving DecidableEq, Repr

/-- R311. -/
def UmpSt.reset : UmpSt := ⟨false, false, false, 0, 0, 0, 0, 0, [], 0, 0, 0, 0, [], [], 0, 0, false, 0, []⟩

/-- A pending proposal (R326, R327): its bytes, the signatures held and when it was proposed. -/
structure Proposal where
  bytes : List Byte
  sigA : Bool
  sigB : Bool
  at_ : Nat
deriving DecidableEq, Repr

/-- One of the two copies of a record in flash, with its own CRC-32 (R315). -/
structure Copy (α : Type) where
  val : α
  crc : Word32
deriving DecidableEq, Repr

/-- A record that is written as a pair of copies (R315). -/
structure Copies (α : Type) where
  one : Copy α
  two : Copy α
deriving DecidableEq, Repr

/-- The pair after a write, by the record's bytes (R315). -/
def Copies.of {α : Type} (bytes : α → List Byte) (v : α) : Copies α := ⟨⟨v, crc32Bytes (bytes v)⟩, ⟨v, crc32Bytes (bytes v)⟩⟩

/-- The record that the pair holds: the copy whose CRC holds, the first of two that agree (R315). -/
def Copies.read {α : Type} [DecidableEq α] (bytes : α → List Byte) (p : Copies α) : α :=
  if p.one.val = p.two.val then p.one.val else if p.one.crc = crc32Bytes (bytes p.one.val) then p.one.val else p.two.val

/-- The boot record (R315, R321, R322): the slot that the next reset boots, and whether the latest boot fell back. -/
structure BootRec where
  nextB : Bool
  fallback : Bool
deriving DecidableEq, Repr

/-- The record's bytes. The spec does not lay them out (DESIGN CHOICE, log entry 133). -/
def BootRec.bytes (r : BootRec) : List Byte := [placeB 8 0 r.nextB ||| placeB 8 1 r.fallback]

/-- A context key in the policy store (R315, R328): what unwrapping it gives, and the key epoch of the device key that it is wrapped
under. The flash holds `WrappedKey.bytes`. -/
structure WrappedKey where
  epoch : BitVec 4
  bits : BitVec 512
deriving DecidableEq, Repr

/-- The wrapped copy (R328). -/
def WrappedKey.bytes (k : WrappedKey) : List Byte :=
  bytesLE 64 (Config.wrapKey (Config.deviceKey Config.deviceFuses k.epoch) k.bits).toNat

/-- The content of the policy store (R315, R317): the entry list, the policies, the party keys, the wrapped context keys and
the pending proposal. -/
structure Policy where
  policySeq : Word32
  proposal : Option Proposal
  members : Word64
  recs : SMap EntryRec
  debugPolicy : Word32
  ownerKey : BitVec 768
  updatePolicy : Word32
  keysSet : Bool
  keyA : BitVec 768
  keyB : BitVec 768
  keys : SMap Nat
  wrapped : SMap WrappedKey
  keySeq : Nat
  smbAddr : Option (BitVec 7)
deriving DecidableEq, Repr

/-- A record of the entry list as its 64 bytes (R323). -/
def recordBytes (r : EntryRec) : List Byte :=
  bytesLE 4 r.perms.toNat ++ bytesLE 2 r.queues.toNat ++ bytesLE 2 r.triggers.toNat ++ bytesLE 8 r.members.toNat ++
  bytesLE 16 r.engines.toNat ++ bytesLE 8 r.captureQuota ++ bytesLE 8 r.sharedQuota ++ bytesLE 8 r.vectorQuota ++ bytesLE 8 0

/-- The store's bytes, of which its CRC-32 is taken. The spec does not lay them out (DESIGN CHOICE, log entry 133). -/
def Policy.bytes (p : Policy) : List Byte :=
  bytesLE 4 p.policySeq.toNat ++ (match p.proposal with
    | some x => [1 ||| placeB 8 1 x.sigA ||| placeB 8 2 x.sigB] ++ bytesLE 8 x.at_ ++ x.bytes
    | none => [0]) ++
  bytesLE 8 p.members.toNat ++ (p.recs.flatMap fun x => bytesLE 1 x.1 ++ recordBytes x.2) ++ bytesLE 4 p.debugPolicy.toNat ++
  bytesLE 96 p.ownerKey.toNat ++ bytesLE 4 p.updatePolicy.toNat ++ [placeB 8 0 p.keysSet] ++ bytesLE 96 p.keyA.toNat ++
  bytesLE 96 p.keyB.toNat ++ (p.keys.flatMap fun x => bytesLE 1 x.1 ++ bytesLE 8 x.2) ++
  (p.wrapped.flatMap fun x => bytesLE 8 x.1 ++ x.2.bytes) ++ bytesLE 8 p.keySeq ++
  (match p.smbAddr with | some a => [1, placeN 8 0 a.toNat] | none => [0])

/-- The policy store when the model starts (DESIGN CHOICE, log entry 9). -/
def Policy.reset : Policy := ⟨0, none, BitVec.allOnes 64, [], 0, 0, 0, false, 0, 0, [], [], 0, none⟩

/-- The Boathouse's core and its memory (R312): RV32IMC in machine mode with pc and x1 to x31, 512 KiB of SRAM, the instant at
which firmware last restarted the watchdog, and whether the debug port has halted it (R331). The spec gives the firmware no
program, so the model moves pc only where a row names it (log entry 134). -/
structure BhCore where
  pc : Word32
  x : SMap Word32
  sram : Memory
  wdAt : Nat
  halted : Bool
deriving DecidableEq, Repr

/-- Reset of the core; the spec gives its registers no reset value (DESIGN CHOICE, log entry 134). -/
def BhCore.reset : BhCore := ⟨0, [], [], 0, false⟩

/-- The Boathouse (R312 to R334). `mbxJob` is the message that the mailbox serves, `boot` the boot record, `delivered` the 64 KiB
sectors of slot A that still hold the image the device came with, `store` the policy
store, `smbAddr` the target address in force. `recs` are the records of the entry list in force by context, `keys` the generation of
each context's Fail Store key (0 none). -/
structure BhSt where
  lifecycle : BitVec 2
  unlocked : Bool
  scope : Word32
  slotB : Bool
  boot : Copies BootRec
  fallback : Bool
  recovery : Bool
  verified : Bool
  svn : BitVec 6
  keyEpoch : BitVec 4
  policySeq : Word32
  proposal : Option Proposal
  mbxType : BitVec 16
  mbxLen : BitVec 13
  mbxBusy : Bool
  mbxJob : BitVec 16 × List Byte
  mbxStatus : Byte
  mbxRspLen : BitVec 13
  mbxReq : Memory
  mbxRsp : Memory
  temps : SMap (BitVec 16)
  volts : SMap (BitVec 16)
  currents : SMap (BitVec 16)
  flash : Memory
  delivered : BitVec 256
  logPtr : Nat
  logSeq : Word32
  members : Word64
  recs : SMap EntryRec
  debugPolicy : Word32
  ownerKey : BitVec 768
  updatePolicy : Word32
  keysSet : Bool
  keyA : BitVec 768
  keyB : BitVec 768
  keys : SMap Nat
  keyBits : SMap (BitVec 512)
  keySeq : Nat
  challenge : Option (BitVec 384 × Word32 × Nat)
  eid : Byte
  chalSeq : Nat
  store : Copies Policy
  smbAddr : BitVec 7
  core : BhCore
deriving DecidableEq, Repr

/-- The log entry of the boot that State.reset stands after (R316): SEQ 0, regatta time 0, kind 1, no data (DESIGN CHOICE, log
entry 9), at the start of the log area. -/
def bootEntry : Memory :=
  ((List.range 64).zip ([0, 0, 0, 0, 0, 0, 0, 0, 0, 0, 0, 0, 1, 0, 0, 0] ++ List.replicate 44 0 ++ [0xD4, 0x65, 0xA3, 0x39])).map fun x =>
    (0x03800000 + x.1, x.2)

/-- Reset of the Boathouse with the contents log entry 9 names (DESIGN CHOICE): FACTORY fuses, nothing pending, every context granted
(R323), and flash that holds delivered firmware in slot A and the entry of its boot (R322). -/
def BhSt.reset : BhSt where
  lifecycle := 0
  unlocked := false
  scope := 0
  slotB := false
  boot := Copies.of BootRec.bytes ⟨false, false⟩
  fallback := false
  recovery := false
  verified := false
  svn := 0
  keyEpoch := 0
  policySeq := 0
  proposal := none
  mbxType := 0
  mbxLen := 0
  mbxBusy := false
  mbxJob := (0, [])
  mbxStatus := 0
  mbxRspLen := 0
  mbxReq := []
  mbxRsp := []
  temps := []
  volts := []
  currents := []
  flash := bootEntry
  delivered := BitVec.allOnes 256
  logPtr := 1
  logSeq := 1
  members := BitVec.allOnes 64
  recs := []
  debugPolicy := 0
  ownerKey := 0
  updatePolicy := 0
  keysSet := false
  keyA := 0
  keyB := 0
  keys := []
  keyBits := []
  keySeq := 0
  challenge := none
  eid := 0
  chalSeq := 0
  store := Copies.of Policy.bytes Policy.reset
  smbAddr := 0x4C
  core := BhCore.reset

/-- The slot that the next reset boots (R321). -/
def BhSt.nextB (b : BhSt) : Bool := (b.boot.read BootRec.bytes).nextB

/-- What the policy store is to hold. -/
def BhSt.policy (b : BhSt) : Policy where
  policySeq := b.policySeq
  proposal := b.proposal
  members := b.members
  recs := b.recs
  debugPolicy := b.debugPolicy
  ownerKey := b.ownerKey
  updatePolicy := b.updatePolicy
  keysSet := b.keysSet
  keyA := b.keyA
  keyB := b.keyB
  keys := b.keys
  wrapped := b.keyBits.map fun x => (x.1, ⟨b.keyEpoch, x.2⟩)
  keySeq := b.keySeq
  smbAddr := (b.store.read Policy.bytes).smbAddr

/-- The policy store is written, both copies (R315). -/
def BhSt.save (b : BhSt) : BhSt := { b with store := Copies.of Policy.bytes b.policy }

/-- The policy store is read back at BOOT (R315, R317). A key wrapped under an earlier key epoch can no longer be unwrapped (R329). -/
def BhSt.load (b : BhSt) : BhSt :=
  let p := b.store.read Policy.bytes
  let open_ := (p.wrapped.filter fun x => x.2.epoch = b.keyEpoch).map fun x => (x.1, x.2.bits)
  { b with
    policySeq := p.policySeq
    proposal := p.proposal
    members := p.members
    recs := p.recs
    debugPolicy := p.debugPolicy
    ownerKey := p.ownerKey
    updatePolicy := p.updatePolicy
    keysSet := p.keysSet
    keyA := p.keyA
    keyB := p.keyB
    keys := p.keys.filter fun x => SMap.has open_ x.2
    keyBits := open_
    keySeq := p.keySeq
    smbAddr := p.smbAddr.getD 0x4C }

/-- The always-on domain's power logic (R339 to R346, R352): AON_CAUSE and AON_WAKE_EN, the power-group signals, the wake
attempt and its instants, the groups `falling` that are being dropped from `fallAt` on, and the wake-failure drive of FAULT_N
(R340, R345). `stopReq` is the MODE_SET STOP that was accepted (R339), `wakeFailed` that an attempt failed since DOCK was last
reached, `vaon` that VAON is there (R362). -/
structure PowerSt where
  cause : Word32
  wakeEn : Word32
  pwrEn : BitVec 4
  falling : BitVec 4
  fallAt : Nat
  pg : BitVec 4
  waking : Bool
  raisedAt : Nat
  pgAt : Option Nat
  booting : Bool
  detArmed : Bool
  stopAt : Option Nat
  stoppedAt : Nat
  faultDrive : Bool
  attempts : Nat
  retryAt : Option Nat
  held : Bool
  stopReq : Option (QueueId × BitVec 16)
  wakeFailed : Bool
  vaon : Bool
deriving DecidableEq, Repr

/-- R352: power-on reset recorded, every group up (the reset value of AON_PWR_STATUS), BOOT running. -/
def PowerSt.reset : PowerSt where
  cause := 1
  wakeEn := 0x00F00007
  pwrEn := 0xF
  falling := 0
  fallAt := 0
  pg := 0xF
  waking := false
  raisedAt := 0
  pgAt := none
  booting := true
  detArmed := false
  stopAt := none
  stoppedAt := 0
  faultDrive := false
  attempts := 0
  retryAt := none
  held := false
  stopReq := none
  wakeFailed := false
  vaon := true

/-- A rail-sense output (R347, R349). -/
inductive SnsOut where
  | low
  | high
  | unsettled
deriving DecidableEq, Repr

/-- A rail-sense comparator (R347 to R351), with its input in uV. -/
structure Sns where
  thr : Word32
  cfg : Word32
  hi : SnsOut
  lo : SnsOut
  evt : BitVec 4
  rbErr : Bool
  uv : Nat
deriving DecidableEq, Repr

/-- R351: HI 4,000, LO 0. The outputs reset to the input's side; the input is 0 V, so HI is LOW and LO, whose band holds
0 V, is UNSETTLED (DESIGN CHOICE of the input, log entry 4). -/
def Sns.reset : Sns := ⟨0x0FA00000, 0, .low, .unsettled, 0, false, 0⟩

/-- RS_STATUS, RS_IRQ and RS_CHECK (R351). -/
structure RsSt where
  refused : Bool
  irq : Word32
  check : Byte
deriving DecidableEq, Repr

/-- R351. -/
def RsSt.reset : RsSt := ⟨false, 0, 0⟩

/-- A waiting MODE_SET (R337): its command, the mode asked for and, for HOLD, the engines it placed its request on that have been
RUNNING ever since. -/
structure ModeWait where
  sq : QueueId
  cid : BitVec 16
  mode : Nat
  engines : List Nat
deriving DecidableEq, Repr

/-- Device state (R22, R23, R270, R335 to R339): the state the mode is formed from, READY, whether a device hold request
is in force, whether a SAFE cause waits for BOOT to end, the MODE_SETs that wait, the TAP instruction (R332), what
the cross-die comparison has counted (R367), and which of the conditions of SAFE, HOLD and RUN have held in the present CK_F
cycle (R23). -/
structure DevSt where
  variant : Variant
  base : Mode
  ready : Bool
  holdReq : Bool
  safePend : Bool
  waits : List ModeWait
  tap : TapInst
  tempRun : Nat
  voltRun : Nat
  seenSafe : Bool
  seenHold : Bool
  seenRun : Bool
deriving DecidableEq, Repr

/-- BOOT (R296), an A1 part (DESIGN CHOICE, log entry 2), no TAP instruction loaded. -/
def DevSt.reset : DevSt where
  variant := .a1
  base := .boot
  ready := false
  holdReq := false
  safePend := false
  waits := []
  tap := .bypass
  tempRun := 0
  voltRun := 0
  seenSafe := false
  seenHold := false
  seenRun := false

/-- Balls the device samples (R88, R172, R173, R193): GATE0 to GATE3 in bits 0 to 3 and TRIG_IN in bit 4, with the
model's own history of their levels by regatta tick, newest first. -/
structure PinsSt where
  level : BitVec 5
  hist : List (Nat × BitVec 5)
deriving DecidableEq, Repr

/-- What the device has sent to the outside. -/
inductive Out where
  | msix (vector : Nat)
  | completion (queue slot : Nat) (entry : BitVec 256)
  | hostWrite (addr : Nat) (data : List Byte)
  | hostRead (addr n : Nat)
  | readData (words : List Word32)
  | readBytes (data : List Byte)
  | event (port : Nat) (flit : BitVec 64)
  | data (port : Nat) (flit : BitVec 512)
  | mctp (msg : List Byte)
  | mctpCtl (body : List Byte)
  | debugData (v : Nat)
  | aerMessage (fatal : Bool)
  | nvmeFlush (drive : Nat)
  | tone (port : Nat)
  | nvmeWrite (drive : Nat) (data : List Byte)
  | pin (ch : Nat) (fu : Nat) (level : Option Bool)
deriving DecidableEq, Repr

end Sys2Proof.Machine
end

