-- ==== Sys2Proof/Machine/TypesLane.lean ====
section
/-! DEFINITION. State of the channels, spares and lanes (spec/02, spec/03, spec/15 R368), as plain data. -/

namespace Sys2Proof.Machine

/-- The three comparator states (R33). -/
inductive Cmp where
  | L
  | M
  | H
deriving DecidableEq, Repr

/-- What a channel's driver presents: off (high impedance or termination, R27), or a logic level. -/
inductive Drive where
  | off
  | level (b : Bool)
deriving DecidableEq, Repr

/-- One half, staged or active, of a channel's thirteen setting registers (R52), in the value order of LEVEL_WRITE. -/
structure FeSet where
  path : BitVec 16
  cfg : BitVec 16
  vih : BitVec 16
  vil : BitVec 16
  vtt : BitVec 16
  voh : BitVec 16
  vol : BitVec 16
  clampHi : BitVec 16
  clampLo : BitVec 16
  pmuCtrl : BitVec 16
  pmuForce : BitVec 16
  vcompHi : BitVec 16
  vcompLo : BitVec 16
deriving DecidableEq, Repr

/-- The reset values of R49 and R51, the same in both halves. -/
def FeSet.reset : FeSet where
  path := 0
  cfg := 0x0020
  vih := 0x2710
  vil := 0x2710
  vtt := 0x2710
  voh := 0x2710
  vol := 0x2710
  clampHi := 0x2710
  clampLo := 0x2710
  pmuCtrl := 0x0006
  pmuForce := 0x2710
  vcompHi := 0xD2F0
  vcompLo := 0x0000

/-- One channel (R10). Times are in fu, the path delay in 2^-8 fu (R178). `cmpHist` and `driveHist` are the model's own: the
instants at which the comparator state and the driven level last changed, newest first; `useD` and `useS` are the programmed
instants of the used drive and strobe edges of the last cycles (R66), in fu of regatta time. `tapD` and `tapS` are the vernier
taps of the last edge placed on each path (R72, R73). `failClr` is the CK_C cycle of the last clear of the fail counter,
`failRun` the last CK_C cycle with a failing strobe and their number in it (R139). -/
structure Chan where
  staged : FeSet
  active : FeSet
  tripped : Bool
  safeOff : Bool
  compliance : Bool
  curLimit : Bool
  aboveVoh : Bool
  aboveVol : Bool
  cmp : Cmp
  inputUv : Int
  cmpHist : List (Nat × Cmp)
  drive : Drive
  lastDriven : Bool
  driveHist : List (Nat × Drive)
  failCnt : BitVec 32
  failClr : Nat
  failRun : Nat × Nat
  pathDelay : Nat
  useD : List Nat
  useS : List Nat
  tapD : BitVec 7
  tapS : BitVec 7
deriving DecidableEq, Repr

/-- A channel after reset (R49). The comparator input is at 0 uV and its state is L, no path delay is calibrated, and tap 0
of each vernier is the last used (DESIGN CHOICE, log entry 4). -/
def Chan.reset : Chan where
  staged := FeSet.reset
  active := FeSet.reset
  tripped := false
  safeOff := false
  compliance := false
  curLimit := false
  aboveVoh := false
  aboveVol := false
  cmp := .L
  inputUv := 0
  cmpHist := []
  drive := .off
  lastDriven := false
  driveHist := []
  failCnt := 0
  failClr := 0
  failRun := (0, 0)
  pathDelay := 0
  useD := []
  useS := []
  tapD := 0
  tapS := 0

/-- One timing set of one channel (R56), with the count WSEQ of applied writes (R79). -/
structure TSet where
  period : BitVec 40
  mux : BitVec 2
  fmt : BitVec 3
  stb : Bool
  dOn : BitVec 40
  dData : BitVec 40
  dRet : BitVec 40
  dOff : BitVec 40
  stbOpen : BitVec 40
  stbClose : BitVec 40
  wseq : BitVec 8
deriving DecidableEq, Repr

/-- Every timing set after reset (R59). -/
def TSet.reset : TSet where
  period := 4096
  mux := 0
  fmt := 0
  stb := false
  dOn := 256
  dData := 1024
  dRet := 2048
  dOff := 256
  stbOpen := 3072
  stbClose := 3584
  wseq := 0

/-- The activity state of a channel or spare (R76): the applied level and the factory offsets, five bits per level. -/
structure Act where
  applied : BitVec 3
  ofs : BitVec 40
deriving DecidableEq, Repr

/-- The applied level is 0 (R79); the factory offsets are 0 (DESIGN CHOICE, log entry 5). -/
def Act.reset : Act := ⟨0, 0⟩

/-- One vernier's tap table (R73), with the count TBL_SEQ of tables installed (R79). -/
structure TapTable where
  taps : List (BitVec 7)
  seq : BitVec 16
deriving DecidableEq, Repr

/-- Entry f holds tap f, the nominal line of R73 (DESIGN CHOICE, log entry 5). -/
def TapTable.reset : TapTable := ⟨(List.range 64).map (BitVec.ofNat 7), 0⟩

/-- One lane's registers (R51, R79, R137, R368) and the state behind them. `actOpen` counts the drive transitions known so far in
each window of 64 ticks that has not ended, by window number (R75), and `derHist` the regatta ticks at which LANE_DERATE rose or
fell, newest first (R207). `actHist` are the levels that the last windows measured, newest first, with the instants of the device's
clock, in fu, at which those windows ended (R76). -/
structure Lane where
  lvlBusy : Bool
  lvlRefused : Bool
  lvlReason : BitVec 4
  lvlChannel : BitVec 4
  lvlSeq : BitVec 8
  adcMux : BitVec 5
  adcAvg : BitVec 4
  adcBusy : Bool
  adcRun : BitVec 5
  adcRunAvg : BitVec 4
  adcPrev : BitVec 5
  adcValue : BitVec 32
  adcRaw : BitVec 18
  adcSeq : BitVec 4
  adcStat : BitVec 2
  adcValid : Bool
  evtOc : BitVec 16
  evtClamp : BitVec 16
  vecLoad : Nat
  tsrCh : BitVec 4
  tsrTset : BitVec 8
  tsrSnap : TSet
  actEn : Bool
  actOpen : SMap Nat
  actCount : BitVec 14
  actLevel : BitVec 3
  actEnd : Nat
  actHist : List (Nat × BitVec 3)
  tapCh : BitVec 5
  tapPath : Bool
  tapFine : BitVec 6
  tapSnap : BitVec 7
  tapSeq : BitVec 16
  derTemp : Bool
  derVolt : Bool
  derSeen : Bool
  derHist : List (Nat × Bool)
  vddh : BitVec 16
deriving DecidableEq, Repr

/-- A lane after reset. LN_ADC_CTRL resets to 0x0000_0011, so MUX is 17; no input has been measured before, which the
model holds as input 17 (DESIGN CHOICE, log entry 13). The tap snapshot is tap 0 of entry 0 (log entry 5). -/
def Lane.reset : Lane where
  lvlBusy := false
  lvlRefused := false
  lvlReason := 0
  lvlChannel := 0
  lvlSeq := 0
  adcMux := 17
  adcAvg := 0
  adcBusy := false
  adcRun := 17
  adcRunAvg := 0
  adcPrev := 17
  adcValue := 0
  adcRaw := 0
  adcSeq := 0
  adcStat := 0
  adcValid := false
  evtOc := 0
  evtClamp := 0
  vecLoad := 0
  tsrCh := 0
  tsrTset := 0
  tsrSnap := TSet.reset
  actEn := true
  actOpen := []
  actCount := 0
  actLevel := 0
  actEnd := 0
  actHist := []
  tapCh := 0
  tapPath := false
  tapFine := 0
  tapSnap := 0
  tapSeq := 0
  derTemp := false
  derVolt := false
  derSeen := false
  derHist := []
  vddh := 0

end Sys2Proof.Machine
end

