-- ==== Sys2Proof/Machine/TypesUnits.lean ====
section
/-! DEFINITION. State of the TIM units and the reference (spec/07), triggers, acquisition and the Log (spec/08),
calibration (spec/09) and the regatta (spec/10), as plain data. Instants are in ticks unless a field says otherwise;
2^-8 fu is the unit of fine times. -/

namespace Sys2Proof.Machine

/-- States of a TIM unit (R175); `dead` is the dead time after a result with measurements left. -/
inductive TimState where
  | idle
  | waitGate
  | armed
  | started
  | dead
deriving DecidableEq, Repr

/-- A TIM result (R183, R185): start in units of 2^-8 fu of regatta time, `endTick` the tick it ended on. -/
structure TimResult where
  seq : BitVec 16
  code : BitVec 3
  refAbsent : Bool
  derated : Bool
  interval : Word64
  start : Nat
  endTick : Nat
  consumed : Bool
deriving DecidableEq, Repr

/-- One TIM unit (R191). `armAt` is the regatta tick from which start edges count, `stopAt` the time of a stop edge of the
present tick, whose result a disarm in that tick still cancels (R185). `snap` is what TIM_RES_STAT last returned, `binS` and
`binP` the bin tables POS. -/
structure Tim where
  st : TimState
  cfg : Word32
  sel : Word32
  count : BitVec 16
  timeout : Word64
  ofs : Word32
  ignored : Bool
  refused : Bool
  tblSeq : BitVec 16
  left : Option Nat
  gate : Bool
  armAt : Nat
  startT : Nat
  stopAt : Option Nat
  deadEnd : Nat
  seq : BitVec 16
  result : Option TimResult
  snap : Option TimResult
  lost : Word32
  binS : List (BitVec 16)
  binP : List (BitVec 16)
deriving DecidableEq, Repr

/-- The nominal bin table: bin t is 512 units wide (R179). -/
def nominalBins : List (BitVec 16) := (List.range 32).map fun t => BitVec.ofNat 16 (512 * t + 256)

/-- R191, R192; the bin tables are nominal (DESIGN CHOICE, log entry 5). -/
def Tim.reset : Tim where
  st := .idle
  cfg := 0
  sel := 0
  count := 1
  timeout := 0
  ofs := 0
  ignored := false
  refused := false
  tblSeq := 0
  left := none
  gate := false
  armAt := 0
  startT := 0
  stopAt := none
  deadEnd := 0
  seq := 0
  result := none
  snap := none
  lost := 0
  binS := nominalBins
  binP := nominalBins

/-- The reference (R186 to R191). `lossEdge` is the regatta tick of the last edge before the loss, `since` the tick at
which the stable run or the relock began, `relocking` whether the return has been recognised. `spans` is the model's own: the
reference-loss spans that have ended (R188), newest first, by their first and last regatta tick. -/
structure RefState where
  present : Bool
  relocked : Bool
  holdover : Bool
  returning : Bool
  latch : Bool
  lossCount : BitVec 16
  lossTime : Nat
  returnTime : Nat
  lossEdge : Nat
  since : Nat
  relocking : Bool
  spans : List (Nat × Nat)
deriving DecidableEq, Repr

/-- R191. -/
def RefState.reset : RefState := ⟨true, true, false, false, false, 0, 0, 0, 0, 0, false, []⟩

/-- States of a trigger group (R197). -/
inductive GrpState where
  | disabled
  | idle
  | armed
  | dead
deriving DecidableEq, Repr

/-- A fire (R193): tick, fine part in 2^-8 fu, regatta ID, source kind and number. -/
structure FireRec where
  tick : Nat
  fine : Nat
  id : Nat
  kind : Nat
  num : Nat
deriving DecidableEq, Repr

/-- One trigger group (R195 to R200, R216). `doneAt` is the latest tick at which a unit of this device ended its record of the
present fire (R198). `trigHist` is the model's own: the ticks from which the condition TRIG has held or not, newest first. -/
structure Group where
  cfg : Word32
  win : Word32
  tims : Word32
  eng : BitVec 128
  st : GrpState
  earlyArm : Bool
  armAt : Option Nat
  held : List Nat
  fires : List FireRec
  decided : Option FireRec
  dones : SMap Nat
  doneAt : Nat
  trigHist : List (Nat × Bool)
  fireTick : Nat
  fireFine : Word32
  dead : Word32
  fireCnt : Word32
deriving DecidableEq, Repr

/-- R200, R216: DISABLED. -/
def Group.reset : Group where
  cfg := 0
  win := 0
  tims := 0
  eng := 0
  st := .disabled
  earlyArm := false
  armAt := none
  held := []
  fires := []
  decided := none
  dones := []
  doneAt := 0
  trigHist := []
  fireTick := 0
  fireFine := 0
  dead := 0
  fireCnt := 0

/-- TRG_STATUS, TRG_OUT_CFG and the TRIG_OUT pulse (R199, R216): the ticks at which pulses wait to rise, and the tick the
present one falls on. -/
structure Trg where
  ignored : Bool
  refused : Bool
  mismatch : Bool
  outCfg : Word32
  outHigh : Bool
  outRise : List Nat
  outFall : Nat
deriving DecidableEq, Repr

/-- R216. -/
def Trg.reset : Trg := ⟨false, false, false, 0x00010140, false, [], 0⟩

/-- States of an acquisition unit, in the order of TRG_ACQk_STATUS.STATE (R201). -/
inductive AcqState where
  | idle
  | waitAdc
  | pre
  | post
  | close
deriving DecidableEq, Repr

/-- One acquisition unit (R201 to R208, R216). Samples are newest first; `lastRec` is the number of the last record written,
and `lastHdr` the region, the offset and the last regatta tick of that record (R188). -/
structure Acq where
  cfg : Word32
  pre : Word32
  post : Word32
  count : Word32
  region : Word32
  level : Word32
  hyst : Word32
  st : AcqState
  recno : BitVec 16
  lastRec : BitVec 16
  done : Nat
  mux : BitVec 5
  qty : Bool
  range : BitVec 3
  preAt : Nat
  samples : List Int
  nSamples : Nat
  trig : Nat
  fire : Option FireRec
  hostStart : Bool
  stopped : Bool
  setting : Bool
  lastHdr : Option (Word32 × Nat × Nat)
deriving DecidableEq, Repr

/-- R216. -/
def Acq.reset : Acq where
  cfg := 0x00100011
  pre := 0
  post := 1
  count := 1
  region := 0
  level := 0
  hyst := 0
  st := .idle
  recno := 0
  lastRec := 0
  done := 0
  mux := 17
  qty := false
  range := 0
  preAt := 0
  samples := []
  nSamples := 0
  trig := 0
  fire := none
  hostStart := false
  stopped := false
  setting := false
  lastHdr := none

/-- A finished Log packet (R209): kind, engine or unit number, words, the tick it was finished, and the regatta tick on which what it
tells of ended. -/
structure Pkt where
  kind : Nat
  unit : Nat
  words : List Word32
  at_ : Nat
  ends : Nat
deriving DecidableEq, Repr

/-- A packet with its sequence number (R210) and, in the filling bank, the tick it entered the intake. -/
structure LogPkt where
  seq : BitVec 12
  pkt : Pkt
deriving DecidableEq, Repr

/-- A read word of the draining bank (R213), and whether it is the first of its packet; where it holds a REF_ABSENT flag, the
regatta tick on which what the packet tells of ended, and the flag's bit (R188). -/
structure ReadWord where
  word : BitVec 256
  first : Bool
  loss : Option (Nat × Nat)
deriving DecidableEq, Repr

/-- The Log (R209 to R217). `fillBank` is the number of the filling bank. -/
structure LogSt where
  cfg : Word32
  swap : Word32
  kindEn : Word32
  finished : List Pkt
  intake : List LogPkt
  filling : List LogPkt
  draining : List ReadWord
  fillBank : Bool
  last : BitVec 256
  lostPkts : Word32
  lostWords : Word32
  levelIrq : Bool
  lost : Bool
  seq : BitVec 12
deriving DecidableEq, Repr

/-- R215, R217; the word last taken is the idle word. -/
def LogSt.reset : LogSt where
  cfg := 0
  swap := 1
  kindEn := 0xFF
  finished := []
  intake := []
  filling := []
  draining := []
  fillBank := false
  last := 0xF0000000
  lostPkts := 0
  lostWords := 0
  levelIrq := false
  lost := false
  seq := 0

/-- One temperature slot of one item (R221): drive and strobe tables, or start and stop bin tables, and Q in 1/256 fu. -/
structure Slot where
  t1 : List Nat
  t2 : List Nat
  q : Int
deriving DecidableEq, Repr

/-- A queue command that waits for calibration rounds (R236): the lanes it names, those that still finish the round before,
those whose round has not ended, and those that ended with a deferred item or with LANE_FAULT. -/
structure CalReq where
  sq : QueueId
  cid : BitVec 16
  wait : BitVec 16
  left : BitVec 16
  defer : BitVec 16
  fault : BitVec 16
deriving DecidableEq, Repr

/-- A CREW_MAP that waits for an in-place measurement to end (R232). -/
structure MapWait where
  sq : QueueId
  cid : BitVec 16
  engine : Nat
  coupling : Byte
  mask : ChanMask
deriving DecidableEq, Repr

/-- The CAL_ block (R237), the temperature slots (key 9·(19·k + item) + slot) and the temperatures they were written at (key 9·k
+ slot), their image in flash and when it was last written (R221), the offset in uV and gain deviation in ppm that correct each
DAC (key 16·channel + DAC) and lane ADC (key 4096 + lane) (R234, R235), the commands that wait, and whether DOCK has been
entered since reset (R220). -/
structure CalSt where
  en : Bool
  dt : Byte
  refused : Bool
  surveyBusy : Bool
  laneFail : BitVec 16
  vrefBad : Bool
  surveyDone : Bool
  surveySeq : Byte
  slots : SMap Slot
  temps : SMap Int
  unsaved : Bool
  flashSlots : SMap Slot
  flashTemps : SMap Int
  savedAt : Option Nat
  corr : SMap (Int × Int)
  reqs : List CalReq
  mapWaits : List MapWait
  docked : Bool
deriving DecidableEq, Repr

/-- R237. -/
def CalSt.reset : CalSt := ⟨true, 32, false, false, 0, false, false, 0, [], [], false, [], [], none, [], [], [], false⟩

/-- The latest switch of a path of a lane (R224, R226): the channel, its instant in fu of regatta time, and the path that served the
channel before it, 0 to 15 or 16 for the spare, with that path's taps. -/
structure PathSwitch where
  chan : Nat
  at_ : Nat
  path : Nat
  taps : List (BitVec 7)
deriving DecidableEq, Repr

/-- Calibration of one lane (R218 to R232, R237, R238): the items still to start in the round, those deferred, those in
progress, the item and phase shown, results, temperatures, and the spare's routing. `spTsets` are the timing sets the
spare holds (R224), `lastHot` the temperature of each channel's last hot calibration (R232), `interp` the interpolated tables that
wait for a safe instant, by item (R222), formed at `interpTemp`. `shadowFrom` and `shadowEnd` are the real
instants, in fu, at which a shadow starts and ends. `kept` are the tap tables that a return has replaced so far, by path, until it
is complete (R219), and `driveWas` and `strobeWas` the latest switch of each path. `svTodo` are the items of a Survey run's round still
to start, `svBegan` says that the round has begun, and `svFail` that a channel failed in it (R234, R237). -/
structure CalLane where
  inRound : Bool
  todo : List Nat
  deferred : List Nat
  active : List Nat
  item : BitVec 5
  phase : BitVec 3
  stale : Bool
  laneFault : Bool
  fails : BitVec 2
  firstFail : Nat
  pending : Bool
  now : BitVec 16
  last : BitVec 16
  results : SMap (BitVec 2)
  deferCnt : Word32
  rounds : Word32
  hot : BitVec 9
  carries : BitVec 5
  spState : BitVec 2
  retired : Bool
  handovers : BitVec 16
  driveSw : Bool
  strobeSw : Bool
  shadowFrom : Option Nat
  shadowEnd : Option Nat
  newTaps : Option (List Nat × List Nat)
  kept : List (Bool × TapTable)
  driveWas : Option PathSwitch
  strobeWas : Option PathSwitch
  spTsets : SMap TSet
  lastHot : SMap Int
  interp : SMap Slot
  interpTemp : Int
  svTodo : Option (List Nat)
  svBegan : Bool
  svFail : Bool
deriving DecidableEq, Repr

/-- R237, R238: no item, no round, the spare free. No result and no substitution is recorded in flash (DESIGN CHOICE,
log entry 9). -/
def CalLane.reset : CalLane where
  inRound := false
  todo := []
  deferred := []
  active := []
  item := 31
  phase := 0
  stale := false
  laneFault := false
  fails := 0
  firstFail := 0
  pending := false
  now := 0
  last := 0
  results := []
  deferCnt := 0
  rounds := 0
  hot := 0
  carries := 31
  spState := 0
  retired := false
  handovers := 0
  driveSw := false
  strobeSw := false
  shadowFrom := none
  shadowEnd := none
  newTaps := none
  kept := []
  driveWas := none
  strobeWas := none
  spTsets := []
  lastHot := []
  interp := []
  interpTemp := 0
  svTodo := none
  svBegan := false
  svFail := false

/-- One Erzal port (R239 to R248, R265): registers, the sequence number of the next data flit, the flits not yet
acknowledged, those that wait to be sent, the sequence number expected next, replays of the first one, and when the oldest was
last sent. `evts` are the event flits sent in the last microsecond, newest first, with their ticks (R244). In a skew survey
`ttSent` requests have gone out, the last on tick `ttAt`, `tt` holds this side's two timestamps of each exchange, and `ttOver` says
that the link has its result (R253). -/
structure Port where
  st : BitVec 2
  role : BitVec 2
  width : BitVec 4
  farId : BitVec 6
  farPort : BitVec 3
  route : Word64
  delay : Word32
  offset : Word32
  crc : BitVec 16
  late : Byte
  down : Byte
  txSeq : BitVec 12
  unacked : List (BitVec 12 × BitVec 512)
  waiting : List (BitVec 512)
  rxSeq : BitVec 12
  replays : Nat
  sentAt : Nat
  downAt : Nat
  evts : List (Nat × BitVec 64)
  ttSent : Nat
  ttAt : Nat
  tt : List (Nat × Int × Int)
  ttOver : Bool
deriving DecidableEq, Repr

/-- R265: DOWN and unused. -/
def Port.reset : Port where
  st := 0
  role := 0
  width := 0
  farId := 0
  farPort := 0
  route := 0
  delay := 0
  offset := 0
  crc := 0
  late := 0
  down := 0
  txSeq := 0
  unacked := []
  waiting := []
  rxSeq := 0
  replays := 0
  sentAt := 0
  downAt := 0
  evts := []
  ttSent := 0
  ttAt := 0
  tt := []
  ttOver := false

/-- An ordered event that waits for its apply instant (R244), in the order received. -/
inductive OrdEv where
  | arm (g : Nat) (tick : Nat) (fromHost : Bool) (id eng : Nat)
  | disarm (g : Nat) (tick : Nat) (fromHost : Bool) (id eng : Nat)
  | done (g : Nat) (id tick : Nat)
deriving DecidableEq, Repr

/-- An ordered event with its apply instant. -/
structure Ordered where
  at_ : Nat
  ev : OrdEv
deriving DecidableEq, Repr

/-- The EZ_ block (R265) and the regatta state of the device: the count of ticks by which regatta time leads the device's
own count, the frame count and the tick at which it is loaded, whether the raw grid is set (R252), the CATCH runs and the last
arrivals (R256, R258), the generation held, with the tick of its boundary, and the one whose commit is awaited (R257), the role
request in flight (R250), and the members known for each coupling (R263). `all` are the IDs enumerated and `tree` each one's parent
(R247); `surveyAt` is the start of the survey that runs, `links` what the root has heard of each child's link, `svResult` this
member's result (R253); `heatIds` are the members with an active heat, as the root has heard, and `heatsTold` what this member
last said (R247). `slews` are the changes of the applied offset, newest first: the instant of the device's clock, in fu, and the offset
that applied before it (R72). `roleLost` is the request that ended ROLE_CONFLICT (R250). -/
structure Ez where
  id : BitVec 6
  valid : Bool
  root : Bool
  parent : BitVec 4
  depth : BitVec 2
  stroke : Bool
  standby : Bool
  enumBusy : Bool
  enumDone : Bool
  surveyBusy : Bool
  surveyAgain : Bool
  surveyAt : Nat
  links : SMap (Option Int)
  svResult : Option (Option Int)
  orphan : Bool
  surveyFail : Bool
  lateEvent : Bool
  refused : Bool
  apLost : Bool
  catchDrift : Bool
  strokeReg : Word32
  members : Word64
  all : Word64
  tree : SMap Nat
  heatIds : Word64
  heatsTold : Bool
  target : Int
  applied : Int
  slews : List (Nat × Int)
  slewAt : Nat
  phase : BitVec 16
  ref : BitVec 16
  tol : Byte
  misses : Word32
  missRun : Nat
  driftRun : Nat
  phases : List Int
  gen : Word32
  genFrame : BitVec 48
  genTick : Nat
  genCatch : Bool
  genStroke : Word32
  genAt : Nat
  genPend : Option (BitVec 48 × Bool × Word32)
  genSent : Word32
  role : Word32
  roleReq : Word32
  roleBusy : Bool
  roleAt : Nat
  roleResult : Byte
  roleConflict : Option Nat
  roleLost : Word32
  lead : Int
  frameLoad : Option (Nat × Nat)
  grid : Bool
  catchOut : Bool
  catchFall : Nat
  newStrokeFrom : Option Nat
  gotCatch : Bool
  surveyTemp : Int
  ordered : List Ordered
  couplings : SMap Word64
deriving DecidableEq, Repr

/-- R265: not enumerated. Regatta time starts at 0 (DESIGN CHOICE, log entry 3). -/
def Ez.reset : Ez where
  id := 0
  valid := false
  root := false
  parent := 15
  depth := 0
  stroke := false
  standby := false
  enumBusy := false
  enumDone := false
  surveyBusy := false
  surveyAgain := false
  surveyAt := 0
  links := []
  svResult := none
  orphan := false
  surveyFail := false
  lateEvent := false
  refused := false
  apLost := false
  catchDrift := false
  strokeReg := 0
  members := 0
  all := 0
  tree := []
  heatIds := 0
  heatsTold := false
  target := 0
  applied := 0
  slews := []
  slewAt := 0
  phase := 0
  ref := 0
  tol := 24
  misses := 0
  missRun := 0
  driftRun := 0
  phases := []
  gen := 0
  genFrame := 0
  genTick := 0
  genCatch := false
  genStroke := 0
  genAt := 0
  genPend := none
  genSent := 0
  role := 0
  roleReq := 0
  roleBusy := false
  roleAt := 0
  roleResult := 0
  roleConflict := none
  roleLost := 0
  lead := 0
  frameLoad := none
  grid := false
  catchOut := false
  catchFall := 0
  newStrokeFrom := none
  gotCatch := true
  surveyTemp := 0
  ordered := []
  couplings := []

/-- Easy-All (R261, R262, R265): `ignoreTo` is the end of the span after a clear in which EASYALL_N is ignored. -/
structure EaSt where
  cfg : Word32
  latched : Bool
  safe : Bool
  kind : BitVec 3
  id : BitVec 6
  num : BitVec 7
  time : Nat
  ignoreTo : Option Nat
deriving DecidableEq, Repr

/-- R265. -/
def EaSt.reset : EaSt := ⟨0xC0, false, false, 0, 0, 0, 0, none⟩

end Sys2Proof.Machine
end

