-- ==== Sys2Proof/Machine/State.lean ====
section
/-! DEFINITION. The state of one DL4256 as plain data, the reasons a step can stop, and the state after reset. Every
table of like things is a sparse map from its index; an index that is not listed holds its reset value. -/

namespace Sys2Proof.Machine

/-- Faults: there is none. Every condition the spec names (an engine fault, a refusal, an Umpire event, SAFE entry) is an
effect on State. -/
inductive Fault where
deriving DecidableEq, Repr

/-- Refusals. -/
inductive Refusal where
  /-- Raised only by an arm of `exec` whose command has no meaning in the model yet. Safe: nothing is claimed of it. -/
  | notModelled (mnemonic : String)
deriving DecidableEq, Repr

/-- The state of one device. -/
structure State where
  /-- The commands that wait, first in, first out. -/
  pending : List Instr
  /-- Ticks of 625 ps since reset (the model's clock; log entry 3). -/
  now : Nat
  /-- The index of the next free value (log entry 1). -/
  freeCount : Nat
  /-- What the device has sent, newest first. -/
  out : List Out
  dev : DevSt
  lanes : SMap Lane
  chans : SMap Chan
  tsets : SMap TSet
  acts : SMap Act
  taps : SMap TapTable
  engines : SMap Engine
  flags : Flags
  pins : PinsSt
  regions : SMap Region
  objs : SMap FsObj
  fc : FailCap
  tims : SMap Tim
  ref : RefState
  groups : SMap Group
  trg : Trg
  acqs : SMap Acq
  log : LogSt
  cal : CalSt
  calLanes : SMap CalLane
  ez : Ez
  ports : SMap Port
  ea : EaSt
  host : HostSt
  ump : UmpSt
  umpSrcs : SMap UmpSrc
  bh : BhSt
  power : PowerSt
  rs : RsSt
  sns : SMap Sns
deriving DecidableEq, Repr

/-- The host interface after reset (R272, R291, R296, R297). Free SHARED memory is the whole 4.5 GB of R19 (per firmware:
DESIGN CHOICE, log entry 8); the MSI-X vectors reset masked (PRESUMED, log entry 8). -/
def HostSt.reset : HostSt where
  ctxs := []
  qps := []
  inflight := []
  fetchSeq := 0
  lastSq := 255
  peak := 0
  claims := []
  locks := []
  apSel := []
  ap := []
  msix := []
  msixPend := 0
  sharedFree := 4500000000
  pci := PciCfg.reset

/-- The machine right after reset: every register at the value its map gives, BOOT running (R22, R296). -/
def State.reset : State where
  pending := []
  now := 0
  freeCount := 0
  out := []
  dev := DevSt.reset
  lanes := []
  chans := []
  tsets := []
  acts := []
  taps := []
  engines := []
  flags := Flags.reset
  pins := ⟨0, []⟩
  regions := []
  objs := []
  fc := FailCap.reset
  tims := []
  ref := RefState.reset
  groups := []
  trg := Trg.reset
  acqs := []
  log := LogSt.reset
  cal := CalSt.reset
  calLanes := []
  ez := Ez.reset
  ports := []
  ea := EaSt.reset
  host := HostSt.reset
  ump := UmpSt.reset
  umpSrcs := []
  bh := BhSt.reset
  power := PowerSt.reset
  rs := RsSt.reset
  sns := []

end Sys2Proof.Machine
end

