-- ==== Sys2Proof/Machine/Access.lean ====
section
/-! DEFINITION. Named reads and writes of the state: one reader, one writer and one update per table. -/

namespace Sys2Proof.Machine

/-- Read lane k (R51). -/
def State.lane (s : State) (k : Nat) : Lane := SMap.get (fun _ => Lane.reset) s.lanes k

/-- Write lane k (R51). -/
def State.setLane (s : State) (k : Nat) (v : Lane) : State := { s with lanes := SMap.put s.lanes k v }

/-- Update lane k (R51). -/
def State.updLane (s : State) (k : Nat) (f : Lane → Lane) : State := s.setLane k (f (s.lane k))

/-- Read channel c (R10). -/
def State.chan (s : State) (k : Nat) : Chan := SMap.get (fun _ => Chan.reset) s.chans k

/-- Write channel c (R10). -/
def State.setChan (s : State) (k : Nat) (v : Chan) : State := { s with chans := SMap.put s.chans k v }

/-- Update channel c (R10). -/
def State.updChan (s : State) (k : Nat) (f : Chan → Chan) : State := s.setChan k (f (s.chan k))

/-- Read timing set number 256·c + t: set t of channel c (R56). -/
def State.tset (s : State) (k : Nat) : TSet := SMap.get (fun _ => TSet.reset) s.tsets k

/-- Write timing set number 256·c + t: set t of channel c (R56). -/
def State.setTset (s : State) (k : Nat) (v : TSet) : State := { s with tsets := SMap.put s.tsets k v }

/-- Update timing set number 256·c + t: set t of channel c (R56). -/
def State.updTset (s : State) (k : Nat) (f : TSet → TSet) : State := s.setTset k (f (s.tset k))

/-- Read the activity state number 17·k + j: channel j, or the spare for j = 16, of lane k (R76). -/
def State.act (s : State) (k : Nat) : Act := SMap.get (fun _ => Act.reset) s.acts k

/-- Write the activity state number 17·k + j: channel j, or the spare for j = 16, of lane k (R76). -/
def State.setAct (s : State) (k : Nat) (v : Act) : State := { s with acts := SMap.put s.acts k v }

/-- Update the activity state number 17·k + j: channel j, or the spare for j = 16, of lane k (R76). -/
def State.updAct (s : State) (k : Nat) (f : Act → Act) : State := s.setAct k (f (s.act k))

/-- Read tap table number 2·(17·k + j) + p: path p of channel j or the spare of lane k (R73). -/
def State.tap (s : State) (k : Nat) : TapTable := SMap.get (fun _ => TapTable.reset) s.taps k

/-- Write tap table number 2·(17·k + j) + p: path p of channel j or the spare of lane k (R73). -/
def State.setTap (s : State) (k : Nat) (v : TapTable) : State := { s with taps := SMap.put s.taps k v }

/-- Update tap table number 2·(17·k + j) + p: path p of channel j or the spare of lane k (R73). -/
def State.updTap (s : State) (k : Nat) (f : TapTable → TapTable) : State := s.setTap k (f (s.tap k))

/-- Read engine n (R80). -/
def State.eng (s : State) (k : Nat) : Engine := SMap.get (fun _ => Engine.reset) s.engines k

/-- Write engine n (R80). -/
def State.setEng (s : State) (k : Nat) (v : Engine) : State := { s with engines := SMap.put s.engines k v }

/-- Update engine n (R80). -/
def State.updEng (s : State) (k : Nat) (f : Engine → Engine) : State := s.setEng k (f (s.eng k))

/-- Read the region of handle index i (R108). -/
def State.region (s : State) (k : Nat) : Region := SMap.get (fun _ => Region.reset) s.regions k

/-- Write the region of handle index i (R108). -/
def State.setRegion (s : State) (k : Nat) (v : Region) : State := { s with regions := SMap.put s.regions k v }

/-- Update the region of handle index i (R108). -/
def State.updRegion (s : State) (k : Nat) (f : Region → Region) : State := s.setRegion k (f (s.region k))

/-- Read the Fail Store object of handle index i (R167). -/
def State.obj (s : State) (k : Nat) : FsObj := SMap.get (fun _ => FsObj.reset) s.objs k

/-- Write the Fail Store object of handle index i (R167). -/
def State.setObj (s : State) (k : Nat) (v : FsObj) : State := { s with objs := SMap.put s.objs k v }

/-- Update the Fail Store object of handle index i (R167). -/
def State.updObj (s : State) (k : Nat) (f : FsObj → FsObj) : State := s.setObj k (f (s.obj k))

/-- Read TIM unit n (R191). -/
def State.tim (s : State) (k : Nat) : Tim := SMap.get (fun _ => Tim.reset) s.tims k

/-- Write TIM unit n (R191). -/
def State.setTim (s : State) (k : Nat) (v : Tim) : State := { s with tims := SMap.put s.tims k v }

/-- Update TIM unit n (R191). -/
def State.updTim (s : State) (k : Nat) (f : Tim → Tim) : State := s.setTim k (f (s.tim k))

/-- Read trigger group g (R193). -/
def State.group (s : State) (k : Nat) : Group := SMap.get (fun _ => Group.reset) s.groups k

/-- Write trigger group g (R193). -/
def State.setGroup (s : State) (k : Nat) (v : Group) : State := { s with groups := SMap.put s.groups k v }

/-- Update trigger group g (R193). -/
def State.updGroup (s : State) (k : Nat) (f : Group → Group) : State := s.setGroup k (f (s.group k))

/-- Read acquisition unit k (R201). -/
def State.acq (s : State) (k : Nat) : Acq := SMap.get (fun _ => Acq.reset) s.acqs k

/-- Write acquisition unit k (R201). -/
def State.setAcq (s : State) (k : Nat) (v : Acq) : State := { s with acqs := SMap.put s.acqs k v }

/-- Update acquisition unit k (R201). -/
def State.updAcq (s : State) (k : Nat) (f : Acq → Acq) : State := s.setAcq k (f (s.acq k))

/-- Read calibration of lane k (R237). -/
def State.calLane (s : State) (k : Nat) : CalLane := SMap.get (fun _ => CalLane.reset) s.calLanes k

/-- Write calibration of lane k (R237). -/
def State.setCalLane (s : State) (k : Nat) (v : CalLane) : State := { s with calLanes := SMap.put s.calLanes k v }

/-- Update calibration of lane k (R237). -/
def State.updCalLane (s : State) (k : Nat) (f : CalLane → CalLane) : State := s.setCalLane k (f (s.calLane k))

/-- Read Erzal port n (R265). -/
def State.port (s : State) (k : Nat) : Port := SMap.get (fun _ => Port.reset) s.ports k

/-- Write Erzal port n (R265). -/
def State.setPort (s : State) (k : Nat) (v : Port) : State := { s with ports := SMap.put s.ports k v }

/-- Update Erzal port n (R265). -/
def State.updPort (s : State) (k : Nat) (f : Port → Port) : State := s.setPort k (f (s.port k))

/-- Read Umpire source n (R311). -/
def State.src (s : State) (k : Nat) : UmpSrc := SMap.get (UmpSrc.reset) s.umpSrcs k

/-- Write Umpire source n (R311). -/
def State.setSrc (s : State) (k : Nat) (v : UmpSrc) : State := { s with umpSrcs := SMap.put s.umpSrcs k v }

/-- Update Umpire source n (R311). -/
def State.updSrc (s : State) (k : Nat) (f : UmpSrc → UmpSrc) : State := s.setSrc k (f (s.src k))

/-- Read rail-sense comparator n (R351). -/
def State.sn (s : State) (k : Nat) : Sns := SMap.get (fun _ => Sns.reset) s.sns k

/-- Write rail-sense comparator n (R351). -/
def State.setSn (s : State) (k : Nat) (v : Sns) : State := { s with sns := SMap.put s.sns k v }

/-- Update rail-sense comparator n (R351). -/
def State.updSn (s : State) (k : Nat) (f : Sns → Sns) : State := s.setSn k (f (s.sn k))

/-- Read context c (R271). -/
def State.ctx (s : State) (k : Nat) : Ctx := SMap.get (fun _ => Ctx.reset) s.host.ctxs k

/-- Write context c (R271). -/
def State.setCtx (s : State) (k : Nat) (v : Ctx) : State :=
  { s with host := { s.host with ctxs := SMap.put s.host.ctxs k v } }

/-- Update context c (R271). -/
def State.updCtx (s : State) (k : Nat) (f : Ctx → Ctx) : State := s.setCtx k (f (s.ctx k))

/-- Read queue pair q (R272). -/
def State.qp (s : State) (k : Nat) : QPair := SMap.get (fun _ => QPair.reset) s.host.qps k

/-- Write queue pair q (R272). -/
def State.setQp (s : State) (k : Nat) (v : QPair) : State :=
  { s with host := { s.host with qps := SMap.put s.host.qps k v } }

/-- Update queue pair q (R272). -/
def State.updQp (s : State) (k : Nat) (f : QPair → QPair) : State := s.setQp k (f (s.qp k))

/-- Read lock n (R292). -/
def State.lock (s : State) (k : Nat) : LockSt := SMap.get (LockSt.reset) s.host.locks k

/-- Write lock n (R292). -/
def State.setLock (s : State) (k : Nat) (v : LockSt) : State :=
  { s with host := { s.host with locks := SMap.put s.host.locks k v } }

/-- Update lock n (R292). -/
def State.updLock (s : State) (k : Nat) (f : LockSt → LockSt) : State := s.setLock k (f (s.lock k))

/-- Read the claim holder of resource number 256·kind + index: 0 to 15 a context, 16 calibration, 31 none (R291). -/
def State.claim (s : State) (k : Nat) : Nat := SMap.get (fun _ => 31) s.host.claims k

/-- Write the claim holder of resource number 256·kind + index: 0 to 15 a context, 16 calibration, 31 none (R291). -/
def State.setClaim (s : State) (k : Nat) (v : Nat) : State :=
  { s with host := { s.host with claims := SMap.put s.host.claims k v } }

/-- Update the claim holder of resource number 256·kind + index: 0 to 15 a context, 16 calibration, 31 none (R291). -/
def State.updClaim (s : State) (k : Nat) (f : Nat → Nat) : State := s.setClaim k (f (s.claim k))

/-- Read geometry descriptor g (R153). -/
def State.geom (s : State) (k : Nat) : Geom := SMap.get (fun _ => Geom.reset) s.fc.geoms k

/-- Write geometry descriptor g (R153). -/
def State.setGeom (s : State) (k : Nat) (v : Geom) : State :=
  { s with fc := { s.fc with geoms := SMap.put s.fc.geoms k v } }

/-- Update geometry descriptor g (R153). -/
def State.updGeom (s : State) (k : Nat) (f : Geom → Geom) : State := s.setGeom k (f (s.geom k))

/-- Read NVMe port k (R166). -/
def State.nv (s : State) (k : Nat) : Nv := SMap.get (fun _ => Nv.reset) s.fc.nv k

/-- Write NVMe port k (R166). -/
def State.setNv (s : State) (k : Nat) (v : Nv) : State :=
  { s with fc := { s.fc with nv := SMap.put s.fc.nv k v } }

/-- Update NVMe port k (R166). -/
def State.updNv (s : State) (k : Nat) (f : Nv → Nv) : State := s.setNv k (f (s.nv k))

end Sys2Proof.Machine
end

