-- ==== Sys2Proof/Machine/Ops.lean ====
section
/-! DEFINITION. The operations every family shares: time, gating, outputs, interrupts, free values, Log packets and the
Umpire's counting of an event. -/

namespace Sys2Proof.Machine

/-- Ticks in a frame, in a microsecond and in a millisecond (R5). -/
def frameTicks : Nat := 262144
def usTicks : Nat := 1600
def msTicks : Nat := 1600000

/-- The value a history gives at time t: newest first, d before the first change. -/
def histAt {α : Type} (d : α) (t : Int) : List (Nat × α) → α
  | [] => d
  | (a, v) :: r => if (a : Int) ≤ t then v else histAt d t r

/-- A history satisfies p at some time from a to b. -/
def histIn {α : Type} (d : α) (p : α → Bool) (a b : Int) (l : List (Nat × α)) : Bool :=
  decide (a ≤ b) && (p (histAt d a l) || l.any fun x => decide (a < (x.1 : Int)) && decide ((x.1 : Int) ≤ b) && p x.2)

/-- The present cycle of CK_C, CK_F and CK_S: 2, 4 and 16 ticks, each edge on a tick boundary (R16, R17). -/
def State.ckC (s : State) : Nat := s.now / 2
def State.ckF (s : State) : Nat := s.now / 4
def State.ckS (s : State) : Nat := s.now / 16

/-- The whole-tick part of the applied skew offset, which sets tick 0 (R17, R252). -/
def State.skewTicks (s : State) : Int := s.ez.applied / 512

/-- The fine part K of the applied skew offset (R72, R252). -/
def State.skewFine (s : State) : Int := s.ez.applied % 512

/-- Regatta time in ticks: the device's count, moved on by the frame load, less the whole-tick part of the skew offset (R17,
R252). It counts frame × 262,144 + tick: bits [17:0] are the tick in the frame, so the number is the layout of COX_LAUNCH
(R107). -/
def State.rtick (s : State) : Nat := ((s.now : Int) + s.ez.lead - s.skewTicks).toNat

/-- Regatta time in fu, at the start of the present tick of the grid on which cycles are laid (R17). -/
def State.rnow (s : State) : Nat := s.rtick * 512

/-- The skew offset in force where `since k a` says whether an offset k that applies from instant a of the device's clock already
does: `k` is the present one, and the list the changes, newest first. -/
def offsetWhere (since : Int → Nat → Bool) (k : Int) : List (Nat × Int) → Int
  | [] => k
  | (a, before) :: r => if since k a then k else offsetWhere since before r

/-- The instant of the device's own clock, in fu, at which something placed at regatta time t, in fu, happens: the whole-tick
part of the skew offset comes through the grid, K is added (R72, R252). An instant before a change of the offset has the offset of
before. -/
def State.rawOf (s : State) (t : Int) : Int :=
  let b := t - s.ez.lead * 512
  b + offsetWhere (fun k a => decide ((a : Int) ≤ b + k)) s.ez.applied s.ez.slews

/-- The offset in force at an instant of the device's own clock, in fu. -/
def State.offsetAt (s : State) (raw : Int) : Int := offsetWhere (fun _ a => decide ((a : Int) ≤ raw)) s.ez.applied s.ez.slews

/-- Regatta time, in fu, of an instant of the device's own clock, in fu (R252). -/
def State.regOf (s : State) (raw : Int) : Int := raw + s.ez.lead * 512 - s.offsetAt raw

/-- The regatta tick of an instant of the device's own clock (R17). -/
def State.regTickOf (s : State) (raw : Nat) : Nat :=
  (((raw / 512 : Nat) : Int) + s.ez.lead - s.offsetAt (raw : Nat) / 512).toNat

/-- How many changes of a quantity the model keeps, newest first. -/
def histKeep : Nat := 64

/-- The applied skew offset takes a new value now (R254). -/
def State.setSkew (s : State) (o : Int) : State :=
  if o = s.ez.applied then s
  else { s with ez := { s.ez with applied := o, slews := ((s.now * 512, s.ez.applied) :: s.ez.slews).take histKeep } }

/-- Regatta time in the layout of COX_LAUNCH. -/
def rtWord (t : Nat) : Word64 := BitVec.ofNat 64 t

/-- The keys of engines that the state lists; an engine that is not listed is IDLE (R103). -/
def State.engineKeys (s : State) : List Nat := s.engines.map (·.1)

/-- Whether some engine satisfies p, which an IDLE engine does not. -/
def State.anyEngine (s : State) (p : Engine → Bool) : Bool := s.engines.any fun e => p e.2

/-- RUNNING or HELD (R22). -/
def Engine.active (e : Engine) : Bool := e.st = .running || e.st = .held

/-- The conditions of HOLD and RUN (R22). -/
def State.holdCond (s : State) : Bool :=
  (s.dev.holdReq || (s.ea.latched && !s.ea.safe)) && !s.anyEngine (fun e => e.st = .running)
def State.runCond (s : State) : Bool := s.anyEngine Engine.active

/-- The device mode (R22, R23): the mode SAFE, HOLD, RUN or DOCK that comes first among those whose condition holds,
outside the other modes. -/
def State.mode (s : State) : Mode :=
  match s.dev.base with
  | .dock | .run | .hold => if s.holdCond then .hold else if s.runCond then .run else .dock
  | m => m

/-- GBL_MODE.MODE (R23): of SAFE, HOLD, RUN and DOCK, the first whose condition has held in the present CK_F cycle. -/
def State.modeShown (s : State) : Mode :=
  match s.mode with
  | .safe => .safe
  | .hold => if s.dev.seenSafe then .safe else .hold
  | .run => if s.dev.seenSafe then .safe else if s.dev.seenHold then .hold else .run
  | .dock => if s.dev.seenSafe then .safe else if s.dev.seenHold then .hold else if s.dev.seenRun then .run else .dock
  | m => m

/-- The conditions that hold now have held in the present CK_F cycle (R23). -/
def State.noteModes (s : State) : State :=
  { s with dev := { s.dev with
      seenSafe := s.dev.seenSafe || s.mode = .safe
      seenHold := s.dev.seenHold || s.mode = .hold
      seenRun := s.dev.seenRun || s.mode = .run } }

/-- One tick passes with no command: the model's clock advances (log entry 3). A new CK_F cycle begins every fourth tick (R16,
R23). -/
def idleTick (s : State) : State :=
  let t := { s with now := s.now + 1 }
  State.noteModes (if t.now % 4 = 0 then { t with dev := { t.dev with seenSafe := false, seenHold := false, seenRun := false } }
    else t)

/-- A command that needs the device powered: in Stop it finds nothing to act on (R341). -/
def inRun (s : State) (f : State → State) : State := if s.dev.base = .stop then s else f s

/-- A write outside the GBL_, BH_ and AON_ windows: it changes nothing until READY = 1 (R270), nor in Stop (R341). -/
def whenReady (s : State) (f : State → State) : State :=
  if s.dev.base = .stop then s else if s.dev.ready then f s else s

/-- Record something the device sends. -/
def State.send (s : State) (o : Out) : State := { s with out := o :: s.out }

/-- Record several things, in order. -/
def State.sends (s : State) (l : List Out) : State := l.foldl State.send s

/-- A read outside the GBL_, BH_ and AON_ windows: n dwords of zero until READY = 1 (R270), and none in Stop (R341). -/
def readWhenReady (s : State) (n : Nat) (f : State → State) : State :=
  if s.dev.base = .stop then s
  else if s.dev.ready then f s else s.send (.readData (List.replicate n 0))

/-- Take one free value (log entry 1). -/
def State.takeFree (s : State) : BitVec 64 × State :=
  (Config.freeBits s.freeCount, { s with freeCount := s.freeCount + 1 })

/-- n free bytes (log entry 1). -/
def State.freeBytes (s : State) (n : Nat) : List Byte × State :=
  ((List.range n).map fun j => fld (Config.freeBits (s.freeCount + j)) 0 8, { s with freeCount := s.freeCount + n })

/-- A dword of the MSI-X table (R267). Vector control (dword 3 of an entry) resets to masked (log entry 8). -/
def State.msixDword (s : State) (i : Nat) : Word32 := SMap.get (fun k => if k % 4 = 3 then 1 else 0) s.host.msix i

/-- Send MSI-X vector v, or set its pending bit while its entry or the function is masked (R267; PCIe Base 5.0, log entry 8).
While MSI-X is not enabled none is sent (R266; log entry 135). -/
def State.sendVector (s : State) (v : Nat) : State :=
  if !s.host.pci.msixEn then s
  else if s.host.pci.msixMask || bit (s.msixDword (4 * v + 3)) 0 then
    { s with host := { s.host with msixPend := setBit s.host.msixPend v true } }
  else s.send (.msix v)

/-- A producer finishes a Log packet of something that ended on regatta tick `ends`; a kind whose LOG_KIND_EN bit is 0 is not sent
(R209). -/
def State.logSendOf (s : State) (kind unit : Nat) (words : List Word32) (ends : Nat) : State :=
  if bit s.log.kindEn kind then
    { s with log := { s.log with finished := s.log.finished ++ [⟨kind, unit, words, s.now, ends⟩] } }
  else s

/-- The same for something that ends now. -/
def State.logSend (s : State) (kind unit : Nat) (words : List Word32) : State := s.logSendOf kind unit words s.rtick

/-- The bit of a packet's first word that holds REF_ABSENT (R207, R209). -/
def refAbsentBit (kind : Nat) : Option Nat := if kind = 2 then some 8 else if kind = 3 then some 30 else none

/-- The two words of a 64-bit value, low word first. -/
def words64 (w : Word64) : List Word32 := [getHalf w false, getHalf w true]

/-- The regatta tick of the edge of the present CK_C cycle (R307). -/
def State.rtEdge (s : State) : Nat := s.regTickOf (s.ckC * 1024)

/-- The order of the entries of one CK_C cycle: rising source, and for one source the kinds in order (R307). -/
def UmpEntry.before (x y : UmpEntry) : Bool := decide (x.src < y.src) || (x.src = y.src && decide (x.kind < y.kind))

/-- Put an entry behind those it does not come before. -/
def insEntry (x : UmpEntry) : List UmpEntry → List UmpEntry
  | [] => [x]
  | y :: r => if x.before y then x :: y :: r else y :: insEntry x r

/-- Write the next entry of the queue; its index is its sequence number modulo 16 (R307). -/
def UmpSt.write (u : UmpSt) (x : UmpEntry) : UmpSt :=
  let e := u.next.toNat % 16
  let w : BitVec 128 := placeN 128 0 x.src ||| placeN 128 8 x.kind ||| place 128 16 u.next |||
    place 128 32 x.detail ||| place 128 64 (rtWord x.time)
  { u with hist := SMap.put u.hist e w, next := u.next + 1, valid := min 16 (u.valid + 1), newest := e }

/-- The queue with exactly the entries l of the present CK_C cycle (R307). -/
def UmpSt.rebuild (u : UmpSt) (l : List UmpEntry) : UmpSt :=
  let seen := min u.ovfSeen l.length
  l.foldl UmpSt.write { u with
    fresh := l
    hist := u.hist0
    next := u.next0
    valid := u.valid0
    newest := if u.valid0 = 0 then 0 else (u.next0 - 1).toNat % 16
    ovfSeen := seen
    histOvf := u.ovf0 || (decide (16 < u.valid0 + l.length) && decide (seen < l.length)) }

/-- The queue in CK_C cycle c: what an earlier cycle left is settled. -/
def UmpSt.inCycle (u : UmpSt) (c : Nat) : UmpSt :=
  if u.cyc = c then u else { u with
    cyc := c
    fresh := []
    hist0 := u.hist
    next0 := u.next
    valid0 := u.valid
    ovf0 := u.histOvf
    ovfSeen := 0 }

/-- Write one history entry (R307): source, kind, detail word and the regatta time of the CK_C edge. -/
def State.umpHist (s : State) (src kind : Nat) (detail : Word32) : State :=
  let u := s.ump.inCycle s.ckC
  { s with ump := u.rebuild (insEntry ⟨src, kind, detail, s.rtEdge⟩ u.fresh) }

/-- Entry to SEVERE: the reaction timer starts (R302). If EN_SEVERE = 1 the vector is sent once the CK_C cycle is over, since a clear
of that cycle can still come before the event (R304). -/
def State.umpSevere (s : State) (n : Nat) : State :=
  let s := s.updSrc n fun r => { r with st := .severe, sevAt := s.now }
  let s := s.umpHist n 2 0
  if bit s.ump.irq 8 then { s with ump := { s.ump with sevIrq := s.ump.sevIrq ++ [(n, fldN s.ump.irq 0 8)] } } else s

/-- The CK_C cycle is over: the vectors of its entries to SEVERE are sent (R302). -/
def State.sendSevere (s : State) : State :=
  (s.ump.sevIrq.map (·.2)).foldl State.sendVector { s with ump := { s.ump with sevIrq := [] } }

/-- What an event does to the state of its source (R301, R302): the count, the window and the quiet period. -/
def UmpSrc.onEvent (r : UmpSrc) (now : Nat) : UmpSrc :=
  match r.st with
  | .clear => { r with st := .counting, count := 1, winAt := now }
  | .counting => { r with count := r.count + 1 }
  | .severe => r
  | .escalated => { r with quietAt := now }

/-- Whether an event that leaves the source as r has brought the count to N (R301). -/
def UmpSrc.reachesN (r : UmpSrc) : Bool := r.st = .counting && decide (r.count.toNat ≥ fldN r.cfg 0 8)

/-- The pair is held Invalid in CK_C cycle c, by an injection or by its wiring, and at which level (R299, R310). -/
def UmpSrc.heldAt (r : UmpSrc) (c : Nat) : Option Bool :=
  if c < r.injTo then some r.injLvl else if c < r.wireTo then some r.wireLvl else none

/-- What the source held before the events of CK_C cycle c is kept (R304). -/
def UmpSrc.keep (r : UmpSrc) (c : Nat) : UmpSrc :=
  if r.pre.any fun p => p.cyc = c then r else { r with pre := some ⟨c, r.st, r.count, r.winAt, r.sevAt, r.quietAt⟩ }

/-- One correctly formed event on a source's pair (R299 to R302, R307, R308): the pair reads Event in this CK_C cycle. While
WIRE is set the source reports nothing (R300), and a pair that is held Invalid carries no event (R299). -/
def State.umpTake (s : State) (n : Nat) (detail : Word32) : State :=
  if (s.src n).wire || ((s.src n).heldAt s.ckC).isSome then s else
  let s := s.updSrc n fun r => { (r.keep s.ckC).onEvent s.now with last := detail, pairP := true, pairN := false, bad := 0 }
  let s := s.umpHist n 0 detail
  let s := if bit (s.src n).cfg 11 then
    s.logSend 5 n ([placeN 32 0 n ||| place 32 16 s.ez.id, detail] ++ words64 (rtWord s.rtEdge)) else s
  if (s.src n).reachesN then s.umpSevere n else s

/-- A reserved source never reports an event (R298). -/
def reservedSource (n : Nat) : Bool := (36 ≤ n && n ≤ 39) || 78 ≤ n

/-- A unit sends an event to the Umpire (R298). -/
def State.umpEvent (s : State) (n : Nat) (detail : Word32) : State :=
  if reservedSource n then s else s.umpTake n detail

/-- A source in the fault state (R302). -/
def UmpSrc.faulty (r : UmpSrc) : Bool := r.st = .severe || r.st = .escalated

/-- UMP_STATUS.FAULT: a source in the fault state or with WIRE = 1 (R306). -/
def State.umpFault (s : State) : Bool := s.umpSrcs.any fun e => e.2.faulty || e.2.wire

/-- FAULT_N is low (R306, R340, R345). -/
def State.faultLow (s : State) : Bool := s.umpFault || s.power.faultDrive

/-- Whether LANE_DERATE is raised on lane k (R367). -/
def Lane.derated (l : Lane) : Bool := l.derTemp || l.derVolt

/-- The device is in a reference-loss span (R188). -/
def State.refSpan (s : State) : Bool := !s.ref.relocked

/-- LANE_DERATE was raised on lane k at some regatta tick from a to b (R185, R207). -/
def State.deratedIn (s : State) (k a b : Nat) : Bool := histIn false id a b (s.lane k).derHist

/-- Regatta ticks first to last overlap a reference-loss span (R185, R188, R206). -/
def State.spanOverlap (s : State) (first last : Nat) : Bool :=
  (s.refSpan && decide (s.ref.lossEdge ≤ last)) || s.ref.spans.any fun p => decide (p.1 ≤ last) && decide (first < p.2)

end Sys2Proof.Machine
end

