-- ==== Sys2Proof/Machine/Flit.lean ====
section
/-! DEFINITION. Data flits (R240, R248): layout, CRC, routing over the tree, and how a port sends and keeps them. -/

namespace Sys2Proof.Machine

/-- The port is UP (EZ_Pn_STATUS, R265). -/
def Port.up (p : Port) : Bool := p.st = 2

/-- The ports that are UP with a role. -/
def State.portsOf (s : State) (role : Nat) : List Nat :=
  (List.range 5).filter fun p => (s.port p).up && (s.port p).role.toNat = role

/-- The port by which an ID leaves (R248), whether its link is UP or not: the one whose mask holds the ID, else the upstream one. -/
def State.routePort (s : State) (id : BitVec 6) : Option Nat :=
  match (List.range 5).find? fun p => bit (s.port p).route id.toNat with
  | some p => some p
  | none => (List.range 5).find? fun p => (s.port p).role = 1

/-- CRC-32 over n bits, bit 0 first (R240; the bit order, the start value and the final inversion are those of IEEE 802.3, PRESUMED,
log entry 14). -/
def crc32Bits {n : Nat} (v : BitVec n) : Word32 := ~~~(((List.range n).map fun i => v.getLsbD i).foldl crc32Step 0xFFFFFFFF)

/-- CRC-32 over the first 60 bytes of a flit (R240). -/
def crc32 (v : BitVec 512) : Word32 := crc32Bits (fld v 0 480 : BitVec 480)

/-- Header fields of a data flit (R240). -/
def flitDest (v : BitVec 512) : BitVec 6 := fld v 8 6
def flitSrc (v : BitVec 512) : BitVec 6 := fld v 14 6
def flitSeq (v : BitVec 512) : BitVec 12 := fld v 20 12
def flitGood (v : BitVec 512) : Bool := fld v 480 32 = crc32 v

/-- A data flit before it goes out on a link (R240). -/
def flitOf (typ : Byte) (src dest : BitVec 6) (payload : BitVec 448) : BitVec 512 :=
  place 512 0 typ ||| place 512 8 dest ||| place 512 14 src ||| place 512 32 payload

/-- A flit with the sequence number of the link it goes out on, and its CRC. -/
def flitWith (v : BitVec 512) (seq : BitVec 12) : BitVec 512 :=
  let v := setFld v 20 seq
  setFld v 480 (crc32 v)

/-- Data flits a sender keeps unacknowledged (R240). -/
def maxUnacked : Nat := 256

/-- The flits that a port sends now of those that wait, and the port that keeps them until they are acknowledged (R240). -/
def Port.pump (r : Port) (now : Nat) : Port × List (BitVec 512) :=
  let n := maxUnacked - r.unacked.length
  let l := (r.waiting.take n).zipIdx.map fun x =>
    (r.txSeq + BitVec.ofNat 12 x.2, flitWith x.1 (r.txSeq + BitVec.ofNat 12 x.2))
  ({ r with
      txSeq := r.txSeq + BitVec.ofNat 12 l.length
      unacked := r.unacked ++ l
      waiting := r.waiting.drop n
      sentAt := if r.unacked.isEmpty && !l.isEmpty then now else r.sentAt }, l.map (·.2))

/-- Port p becomes r and sends what it can. -/
def State.pumpPort (s : State) (p : Nat) (r : Port) : State :=
  { s with
    ports := SMap.put s.ports p (r.pump s.now).1
    out := ((r.pump s.now).2.map (Out.data p)).reverse ++ s.out }

/-- Flits join those that wait on port p; on a link that is not UP they are lost (R248). -/
def State.post (s : State) (p : Nat) (l : List (BitVec 512)) : State :=
  if (s.port p).up then s.pumpPort p { s.port p with waiting := (s.port p).waiting ++ l } else s

/-- Flits leave by the port of their destination (R248); without one they are lost. -/
def State.forward (s : State) (dest : BitVec 6) (l : List (BitVec 512)) : State :=
  match s.routePort dest with
  | some p => s.post p l
  | none => s

/-- Send a message to a member as data flits (R240, R248). -/
def State.sendTo (s : State) (i : Nat) (m : DataPayload) : State :=
  let id := BitVec.ofNat 6 i
  if id = s.ez.id then s else s.forward id ((Config.spell m).map fun x => flitOf x.1 s.ez.id id x.2)

/-- Send a message to several members. -/
def State.sendAll (s : State) (l : List Nat) (m : DataPayload) : State := l.foldl (fun s i => s.sendTo i m) s

end Sys2Proof.Machine
end

