-- ==== Sys2Proof/Machine/Queue.lean ====
section
/-! DEFINITION. The life of a queue command (R273 to R289): its record, its checks, its decision, and the status codes of
R282. A command row acts through `queueCmd`; COMMAND_COMMIT writes the entry. -/

namespace Sys2Proof.Machine

/-- R282. -/
def stOk : Byte := 0x00
def stAborted : Byte := 0x01
def stCancelled : Byte := 0x02
def stTargetDone : Byte := 0x03
def stRefusedRating : Byte := 0x04
def stRefusedCapacity : Byte := 0x05
def stSegActive : Byte := 0x06
def stStaleHandle : Byte := 0x07
def stNotOwner : Byte := 0x08
def stLockOrder : Byte := 0x09
def stClaimed : Byte := 0x0A
def stNotErased : Byte := 0x0B
def stDenied : Byte := 0x0C
def stBadCommand : Byte := 0x0D
def stEngineFault : Byte := 0x0E
def stDeviceSafe : Byte := 0x0F
def stPartial : Byte := 0x10
def stTimeout : Byte := 0x11
def stRefAbsent : Byte := 0x12
def stNotReady : Byte := 0x13
def stRoleConflict : Byte := 0x14
def stStrokeChange : Byte := 0x15

/-- The context a queue belongs to (R271). -/
def ctxOfQueue (q : QueueId) : Nat := q.val / 16

/-- A record that is being executed (R284). -/
def Cmd.fresh (sq : QueueId) (cid : BitVec 16) (opc : Byte) (target : BitVec 6) (seq : Nat) (stage : Stage) : Cmd where
  sq := sq
  cid := cid
  opc := opc
  target := target
  fence := false
  seq := seq
  stage := stage
  status := 0
  detail := 0
  r0 := 0
  r1 := 0
  part := false
  fcsat := false
  suspect := false
  order := 0
  engine := none
  bar := []
  quiet := false
  source := 0
  entry := EntryRec.all
  raw := none
  csn := none
  xfer := none
  behind := false

/-- The record names this queue and CID. -/
def Cmd.names (c : Cmd) (sq : QueueId) (cid : BitVec 16) : Bool := c.sq = sq && c.cid = cid

/-- Not yet decided (R284). -/
def Cmd.open (c : Cmd) : Bool := c.stage ≠ .committed

/-- The decision on a command: its status and results; its entry is then reserved, and written by COMMAND_COMMIT. -/
def Cmd.decide (c : Cmd) (status : Byte) (detail : Word32 := 0) (r0 r1 : Word64 := 0) : Cmd :=
  { c with stage := .committed, status := status, detail := detail, r0 := r0, r1 := r1 }

/-- An entry may be reserved for the command (R284): it is decided, no transfer of it can still be stopped, and every earlier
one (`pre`) of its ordered group has its own (R286, R287). -/
def Cmd.ripe (c : Cmd) (pre : List Cmd) : Bool :=
  c.stage = .committed && c.csn.isNone && c.xfer.isNone && !(c.order ≠ 0 && pre.any fun d => d.order = c.order && d.csn.isNone)

/-- Commands of an SQ for which an entry is reserved. -/
def reservedOf (l : List Cmd) (q : QueueId) : Nat := (l.filter fun c => c.sq = q && c.csn.isSome).length

/-- Reserve entries in the order of fetch: `next` is the CSN of a CQ's next entry. -/
def reserveIn (next : QueueId → Word32) : List Cmd → List Cmd → List Cmd
  | pre, [] => pre
  | pre, c :: r =>
    let c' := if c.ripe pre then
        { c with csn := some (next c.sq + BitVec.ofNat 32 (reservedOf pre c.sq + reservedOf r c.sq)) } else c
    reserveIn next (pre ++ [c']) r

/-- The device stands at the top of its tree: the root, or not enumerated (R15). -/
def State.isTop (s : State) : Bool := !s.ez.valid || s.ez.id = 0

/-- The commit point (R284): the root assigns the next CSN of its CQ, and with it the slot, to every command that has been decided.
Another member decides when it sends its completion flit. -/
def State.reserve (s : State) : State :=
  if s.isTop then
    { s with host := { s.host with inflight := reserveIn (fun q => (s.qp q.val).csn) [] s.host.inflight } }
  else s

/-- Update every record in flight. -/
def State.mapCmds (s : State) (f : Cmd → Cmd) : State :=
  State.reserve { s with host := { s.host with inflight := s.host.inflight.map f } }

/-- Update the first element that satisfies p. -/
def updFirst {α : Type} (p : α → Bool) (f : α → α) : List α → List α
  | [] => []
  | a :: r => if p a then f a :: r else a :: updFirst p f r

/-- The open record of a queue and CID. -/
def State.cmd? (s : State) (sq : QueueId) (cid : BitVec 16) : Option Cmd :=
  s.host.inflight.find? fun c => c.names sq cid && c.open

/-- Update the open record of a queue and CID. -/
def State.updCmd (s : State) (sq : QueueId) (cid : BitVec 16) (f : Cmd → Cmd) : State :=
  State.reserve { s with host := { s.host with inflight := updFirst (fun c => c.names sq cid && c.open) f s.host.inflight } }

/-- Decide one command (R284). A command no longer in flight keeps its decision. -/
def State.finish (s : State) (sq : QueueId) (cid : BitVec 16) (status : Byte) (detail : Word32 := 0)
    (r0 r1 : Word64 := 0) : State :=
  s.updCmd sq cid fun c => c.decide status detail r0 r1

/-- Decide every open command that satisfies p. -/
def State.finishAll (s : State) (p : Cmd → Bool) (status : Byte) (detail : Word32 := 0) (r0 : Word64 := 0) : State :=
  s.mapCmds fun c => if c.open && p c then c.decide status detail r0 else c

/-- The operand bytes of an entry that hold the given fields: bit position and value (R277). -/
def opBits (ops : List (Nat × Nat)) : BitVec 512 := ops.foldl (fun m f => m ||| placeN 512 f.1 f.2) 0

/-- The entry that was fetched spells this command (R275, R277): its OPC, TARGET, CID, DPTR and operand bytes. -/
def entrySpells (e : BitVec 512) (h : Hdr) (opc : Byte) (ops : List (Nat × Nat)) : Bool :=
  fld e 0 8 = opc && fld e 16 6 = h.target && fld e 32 16 = h.cid && fld e 64 64 = h.dptr && e >>> 128 = opBits ops >>> 128

/-- The entry of a command: as it was fetched, or spelled anew (R275, R277). -/
def State.entryOf (s : State) (h : Hdr) (opc : Byte) (ops : List (Nat × Nat)) : BitVec 512 :=
  match (s.cmd? h.sq h.cid).bind (·.raw) with
  | some e => e
  | none => place 512 0 opc ||| place 512 16 h.target ||| place 512 32 h.cid ||| place 512 64 h.dptr ||| opBits ops

/-- A command row may act: its command has started and was fetched as this one, or nothing in flight has its queue and CID (it is
then taken as fetched and started here). -/
def State.runnable (s : State) (h : Hdr) (opc : Byte) (ops : List (Nat × Nat)) : Bool :=
  match s.cmd? h.sq h.cid with
  | some c => c.stage = .started && !c.behind && (match c.raw with | some e => entrySpells e h opc ops | none => true)
  | none => !s.host.inflight.any fun c => c.names h.sq h.cid

/-- The opcodes with a data buffer; DPTR of any other is 0 (R275, R277). -/
def usesDptr (opc : Byte) : Bool :=
  [0x08, 0x09, 0x0A, 0x10, 0x1A, 0x1B, 0x30, 0x3A].contains opc.toNat

/-- Commands in flight for this device (GBL_INFLIGHT.COUNT, R296). -/
def State.devInflight (s : State) : Nat := (s.host.inflight.filter fun c => c.target = s.ez.id).length

/-- GBL_INFLIGHT.PEAK follows the count (R296). -/
def State.notePeak (s : State) : State := { s with host := { s.host with peak := max s.host.peak s.devInflight } }

/-- The record in force for a context: in FACTORY every one grants everything (R323), and a member other than the root applies
no list of its own. -/
def State.entryRec (s : State) (c : Nat) : EntryRec :=
  if s.bh.lifecycle = 0 || !s.isTop then EntryRec.all else SMap.get (fun _ => EntryRec.all) s.bh.recs c

/-- A new record joins the commands in flight, to be judged by a record of the entry list (R324). -/
def State.addCmdAs (s : State) (c : Cmd) (rec : EntryRec) : State :=
  State.reserve <| State.notePeak { s with host := { s.host with
    inflight := s.host.inflight ++ [{ c with source := s.ez.id, entry := rec }]
    fetchSeq := s.host.fetchSeq + 1 } }

/-- A new record joins the commands in flight; it completes under the entry list of this moment (R325). -/
def State.addCmd (s : State) (c : Cmd) : State := s.addCmdAs c (s.entryRec (ctxOfQueue c.sq))

/-- The record exists from here on. -/
def State.begin (s : State) (h : Hdr) (opc : Byte) : State :=
  match s.cmd? h.sq h.cid with
  | some _ => s
  | none => s.addCmd (Cmd.fresh h.sq h.cid opc h.target s.host.fetchSeq .started)

/-- The record of the entry list that judges a command (R325). -/
def State.recAt (s : State) (sq : QueueId) (cid : BitVec 16) : EntryRec :=
  match s.cmd? sq cid with
  | some c => c.entry
  | none => s.entryRec (ctxOfQueue sq)
def State.recOf (s : State) (h : Hdr) : EntryRec := s.recAt h.sq h.cid

/-- What R324 asks of the record, besides TARGET in MEMBERS. -/
def grantsMember (r : EntryRec) (t : BitVec 6) : Bool := bit r.members t.toNat

/-- The command goes to the member it targets, with the record that judges it (R248, R324). -/
def State.forwardCmd (s : State) (sq : QueueId) (cid : BitVec 16) (target : BitVec 6) (e : BitVec 512) : State :=
  (s.updCmd sq cid fun c => { c with stage := .remote, source := target, behind := false }).sendTo target.toNat
    (.command sq e (s.recAt sq cid))

/-- An earlier HEAT_START for the same engine of the same member has not left for it, nor been decided (R278, R283). -/
def Cmd.waitsFor (c d : Cmd) : Bool :=
  c.opc = 0x01 && d.opc = 0x01 && d.target = c.target && d.engine = c.engine && d.open && d.stage ≠ .remote && d.seq.blt c.seq

/-- The HEAT_START must wait here for an earlier one. -/
def State.heatBehind (s : State) (sq : QueueId) (cid : BitVec 16) : Bool :=
  match s.cmd? sq cid with
  | some c => s.host.inflight.any c.waitsFor
  | none => false

/-- HEAT_STARTs that wait for no earlier one any more leave for their members, in the order of fetch (R278, R283). -/
def State.releaseHeats (s : State) : State :=
  (s.host.inflight.filter (·.behind)).foldl (fun s c =>
    match s.cmd? c.sq c.cid with
    | some d => if d.behind && !s.host.inflight.any d.waitsFor then s.forwardCmd c.sq c.cid c.target (d.raw.getD 0) else s
    | none => s) s

/-- The common checks of R276 in their order, then the command itself, here or at the member it targets. `ops` are the fields of
its entry (R277); `here` is a command that the root itself judges whatever TARGET names. -/
def queueCmd (s : State) (h : Hdr) (opc : Byte) (ops : List (Nat × Nat)) (wf : Bool) (permit : EntryRec → Bool) (here : Bool)
    (body : State → State) : State :=
  if s.dev.base = .stop then s
  else if !s.runnable h opc ops then s
  else
    let s := s.begin h opc
    let r := s.recOf h
    if !(wf && (usesDptr opc || h.dptr = 0)) then s.finish h.sq h.cid stBadCommand
    else if !bit s.ez.members h.target.toNat then s.finish h.sq h.cid stBadCommand
    else if !(grantsMember r h.target && permit r) then s.finish h.sq h.cid stDenied
    else if !here && h.target ≠ s.ez.id then
      if s.heatBehind h.sq h.cid then s.updCmd h.sq h.cid fun c => { c with behind := true, raw := some (s.entryOf h opc ops) }
      else (s.forwardCmd h.sq h.cid h.target (s.entryOf h opc ops)).releaseHeats
    else body s

/-- Every record is permitted. -/
def anyRec : EntryRec → Bool := fun _ => true

/-- The command names an engine the context may name (R324). -/
def engineRec (e : Byte) : EntryRec → Bool := fun r => bit r.engines e.toNat

/-- Decide the command of a header. -/
def State.done (s : State) (h : Hdr) (status : Byte) (detail : Word32 := 0) (r0 r1 : Word64 := 0) : State :=
  s.finish h.sq h.cid status detail r0 r1

end Sys2Proof.Machine
end

