-- ==== Sys2Proof/Machine/Event.lean ====
section
/-! DEFINITION. Event flits (R241 to R244): layout, CRC, routing over the tree, and the ordered events that wait for their
apply instants. -/

namespace Sys2Proof.Machine

/-- One step of the CRC-8 with polynomial 0x07. -/
def crc8Step (c : Byte) (b : Bool) : Byte :=
  let sh := c <<< 1
  if (c.getLsbD 7) ^^ b then sh ^^^ 0x07 else sh

/-- CRC-8 over bits [55:0], bit 55 first, from 0 (R241; the start value and the bit order are PRESUMED, log entry 14). -/
def crc8 (v : BitVec 56) : Byte := ((List.range 56).reverse.map fun i => v.getLsbD i).foldl crc8Step 0

/-- An event flit (R241). -/
def evtFlit (typ : Nat) (src : BitVec 6) (ts : BitVec 16) (payload : BitVec 30) : BitVec 64 :=
  let body : BitVec 56 := placeN 56 0 (typ % 16) ||| place 56 4 src ||| place 56 10 ts ||| place 56 26 payload
  place 64 0 body ||| place 64 56 (crc8 body)

/-- Bits [15:0] of a regatta tick count (R241). -/
def tsOf (tick : Nat) : BitVec 16 := BitVec.ofNat 16 tick

/-- The regatta tick nearest the present one that ends in ts (R241). -/
def resolveTs (present : Nat) (ts : BitVec 16) : Nat :=
  let c := present - present % 65536 + ts.toNat
  if c + 32768 < present then c + 65536
  else if present + 32768 < c then c - 65536
  else c

/-- An event flit goes out on a port, as two copies, back to back (R243). Event flits but those of types 8 and 9 are kept for a
microsecond, in case the far end gets neither copy (R244; log entry 128). -/
def State.putEvt (s : State) (p typ : Nat) (v : BitVec 64) : State :=
  { s with
    ports := if 8 ≤ typ then s.ports else
      SMap.put s.ports p { s.port p with evts := (s.now, v) :: (s.port p).evts.filter fun e => decide (s.now < e.1 + usTicks) }
    out := .event p v :: .event p v :: s.out }

/-- Send an event flit of this device on a port. -/
def State.sendEvt (s : State) (p : Nat) (typ : Nat) (tick : Nat) (payload : BitVec 30) : State :=
  s.putEvt p typ (evtFlit typ s.ez.id (tsOf tick) payload)

/-- Send on several ports. -/
def State.sendEvts (s : State) (ps : List Nat) (typ tick : Nat) (payload : BitVec 30) : State :=
  ps.foldl (fun s p => s.sendEvt p typ tick payload) s

/-- An ordered event of this device goes up the tree; at the top it is broadcast, and recorded here by `rec` (R242, R243). A
device below the top records its own event when the broadcast reaches it. -/
def State.sendOrdered (s : State) (typ tick : Nat) (payload : BitVec 30) (rec : State → State) : State :=
  if s.isTop then rec (s.sendEvts (s.portsOf 2) typ tick payload)
  else s.sendEvts (s.portsOf 1) typ tick payload

/-- A flooded event leaves on every port but the one it arrived on and CROSS ports (R242, R246). -/
def State.flood (s : State) (from_ : Option Nat) (typ tick : Nat) (payload : BitVec 30) : State :=
  s.sendEvts ((s.portsOf 1 ++ s.portsOf 2).filter fun p => some p ≠ from_) typ tick payload

/-- An ordered event waits for its apply instant (R244). -/
def State.addOrdered (s : State) (at_ : Nat) (ev : OrdEv) : State :=
  { s with ez := { s.ez with ordered := s.ez.ordered ++ [⟨at_, ev⟩] } }

/-- The IDs whose copies of a group must be heard (R198): the enumerated members, or this device alone. -/
def State.memberIds (s : State) : List Nat := if s.ez.valid then bitsOf 64 s.ez.members else [s.ez.id.toNat]

/-- The other members. -/
def State.otherIds (s : State) : List Nat := s.memberIds.filter fun i => i ≠ s.ez.id.toNat

/-- FIRE, ARM, DONE and RFLAG are applied 320 ticks after their instants (R244). -/
def orderedDelay : Nat := 320

/-- A time in units of 2^-8 fu, split into tick and fine part. -/
def fineTick (t : Nat) : Nat × Nat := (t / 131072, t % 131072)

end Sys2Proof.Machine
end

