-- ==== Sys2Proof/Machine/RegionOps.lean ====
section
/-! DEFINITION. Regions by handle and their bytes (R108, R109, R143, R167). -/

namespace Sys2Proof.Machine

/-- The handle of index i at generation g (R108, R167). -/
def handleOf (i : Nat) (g : BitVec 12) : Word32 := placeN 32 0 i ||| place 32 20 g

/-- The index of a handle. -/
def handleIdx (h : Word32) : Nat := fldN h 0 20

/-- The handle's generation is current (R108). -/
def State.liveRegion (s : State) (h : Word32) : Bool :=
  (s.region (handleIdx h)).live && (s.region (handleIdx h)).gen = fld h 20 12

/-- The same for a Fail Store object (R167). -/
def State.liveObj (s : State) (h : Word32) : Bool :=
  (s.obj (handleIdx h)).live && (s.obj (handleIdx h)).gen = fld h 20 12

/-- Read n bytes of a region. Its memory reads zero where nothing was written (R143; log entry 16). -/
def State.regionBytes (s : State) (i a n : Nat) : List Byte := Memory.readN 0 (s.region i).mem a n

/-- Write bytes of a region. -/
def State.regionWrite (s : State) (i a : Nat) (bs : List Byte) : State :=
  s.updRegion i fun r => { r with mem := Memory.writeN 0 r.mem a bs }

/-- The keys of regions the state lists. -/
def State.regionKeys (s : State) : List Nat := s.regions.map (·.1)

/-- The next generation of an index; 0 is passed over, so that no handle is 0 (R167; DESIGN CHOICE, log entry 11). -/
def nextGen (g : BitVec 12) : BitVec 12 := if g = 4095 then 1 else g + 1

/-- The channels of a mask in lane k, rising (R109). -/
def laneChans (m : ChanMask) (k : Nat) : List Nat := (List.range 16).filterMap fun j =>
  if m.getLsbD (16 * k + j) then some (16 * k + j) else none

/-- M of a VECTOR region (R109, R373). -/
def Region.mux (r : Region) : Nat := 2 ^ r.mcode.toNat

/-- The row width in bits of a slice of n channels (R109). -/
def rowWidth (n m : Nat) : Nat := 64 * ceilDiv (8 + n * (4 + m)) 64

/-- The slices of a region in ascending lane: the lane and its row width (R109). -/
def Region.slices (r : Region) : List (Nat × Nat) :=
  (List.range 16).filterMap fun k =>
    let n := (laneChans r.mask k).length
    if n = 0 then none else some (k, rowWidth n r.mux)

/-- Bytes of one granule of a slice (R109). -/
def granBytes (w : Nat) : Nat := 8 * w

/-- Where the slice of lane k starts in the region's bytes: the slices lie one after the other. -/
def Region.sliceBase (r : Region) (k : Nat) : Nat :=
  (r.slices.filter fun p => decide (p.1 < k)).foldl (fun a p => a + r.size * granBytes p.2) 0

/-- Row `row` of granule g of a slice of width w (R110, R111). -/
def State.sliceRow (s : State) (i base w g row : Nat) : Nat :=
  leNat (s.regionBytes i (base + granBytes w * g + row * (w / 8)) (w / 8))

/-- Bytes of one granule over all slices (R109, R277). -/
def Region.granAll (r : Region) : Nat := r.slices.foldl (fun a k => a + granBytes k.2) 0

/-- Where the slice of lane k starts in a granule's bytes: the slices in ascending lane (R277). -/
def Region.granBase (r : Region) (k : Nat) : Nat :=
  (r.slices.filter fun p => decide (p.1 < k)).foldl (fun a p => a + granBytes p.2) 0

/-- Write one granule whole: its slices in ascending lane (R123, R277). -/
def State.writeGranule (s : State) (i g : Nat) (data : List Byte) : State :=
  (s.region i).slices.foldl (fun t k =>
    t.regionWrite i ((s.region i).sliceBase k.1 + granBytes k.2 * g) (sliceB data ((s.region i).granBase k.1) (granBytes k.2))) s

/-- The bytes of a granule, its slices in ascending lane. -/
def State.readGranule (s : State) (i g : Nat) : List Byte :=
  (s.region i).slices.flatMap fun k => s.regionBytes i ((s.region i).sliceBase k.1 + granBytes k.2 * g) (granBytes k.2)

/-- What a fetch of granule g of region i finds (R123): where accepted writes may still have to write it, a free choice says how
many of them have; those before need not be looked at again. -/
def State.seeGranule (s : State) (i g : Nat) : List Byte × State :=
  match (s.region i).late.filter fun x => x.gran = g with
  | [] => (s.readGranule i g, s)
  | l =>
    let (v, s) := s.takeFree
    let n := v.toNat % (l.length + 1)
    let rest := l.drop n
    let s := s.updRegion i fun r => { r with late := r.late.filter fun x => x.gran ≠ g || rest.contains x }
    match rest with
    | [] => (s.readGranule i g, s)
    | x :: _ => (x.old, s)

/-- A mixture of old and new bytes: free choices say which (R285). -/
def State.mixBytes (s : State) (old new : List Byte) : List Byte × State :=
  ((List.range new.length).map fun j =>
      if (Config.freeBits (s.freeCount + j)).getLsbD 0 then new.getD j 0 else old.getD j 0,
    { s with freeCount := s.freeCount + new.length })

/-- Of n bytes that were to move, those that have moved when a transfer is stopped before it has moved all (R285). -/
def State.movedOf (s : State) (n : Nat) : Nat × State :=
  let (v, s) := s.takeFree
  (if n = 0 then 0 else v.toNat % n, s)

/-- What a transfer was to move. -/
def Xfer.size (x : Xfer) : Nat :=
  match x with
  | .out n => n
  | .region _ _ _ old => old.length
  | .segment _ _ count _ => count

/-- The next write to granule g finds this content there. -/
def patchNext (g : Nat) (old : List Byte) : List LateGran → Option (List LateGran)
  | [] => none
  | z :: r => if z.gran = g then some ({ z with old := old } :: r) else (patchNext g old r).map fun l => z :: l

/-- The write y will not come: the list without it, and whether a later write to its granule is on its way, which then finds
what y found. -/
def undoLate (y : LateGran) : List LateGran → List LateGran × Bool
  | [] => ([], false)
  | z :: r =>
    if z = y then
      match patchNext y.gran y.old r with
      | some l => (l, true)
      | none => (r, false)
    else (z :: (undoLate y r).1, (undoLate y r).2)

/-- A granule of a transfer that is stopped (R123, R285): whether it has been written is a free choice. -/
def State.cutGranule (s : State) (i : Nat) (y : LateGran) : State :=
  let (v, s) := s.takeFree
  let l := (s.region i).late
  if v.getLsbD 0 then s.updRegion i fun r => { r with late := l.filter fun z => z ≠ y }
  else
    let s := s.updRegion i fun r => { r with late := (undoLate y l).1 }
    if (undoLate y l).2 then s else s.writeGranule i y.gran y.old

/-- The writes of a command that has written all its granules, and those before it to the same granules, are on their way no
longer (R123). -/
def lateAfter (cmd : Nat) (l : List LateGran) : List LateGran :=
  (l.foldr (fun z (a : List LateGran × List Nat) =>
    if z.cmd = cmd then (a.1, z.gran :: a.2) else if a.2.contains z.gran then a else (z :: a.1, a.2)) ([], [])).1

/-- What a transfer that is stopped leaves (R285): how many bytes from its start are written and visible; those beyond hold a
mixture of old and new data. -/
def State.cutXfer (s : State) (cmd : Nat) (x : Xfer) : Nat × State :=
  match x with
  | .out n => s.movedOf n
  | .region i off gen old =>
    let (k, s) := s.movedOf old.length
    if (s.region i).gen ≠ gen then (k, s)
    else
      let (bs, s) := s.mixBytes (old.drop k) (s.regionBytes i (off + k) (old.length - k))
      (k, s.regionWrite i (off + k) bs)
  | .segment i first count gen =>
    let (k, s) := s.movedOf count
    if (s.region i).gen ≠ gen then (k * (s.region i).granAll, s)
    else
      let mine := (s.region i).late.filter fun y => y.cmd = cmd && decide (first + k ≤ y.gran)
      let s := mine.foldl (fun s y => s.cutGranule i y) s
      let s := s.updRegion i fun r => { r with late := r.late.filter fun y => y.cmd ≠ cmd }
      (k * (s.region i).granAll, s)

/-- A transfer has moved everything: its result is visible (R284). -/
def State.endXfer (s : State) (cmd : Nat) (x : Xfer) : State :=
  match x with
  | .segment i _ _ _ => s.updRegion i fun r => { r with late := lateAfter cmd r.late }
  | _ => s

/-- The number of the command of a header. -/
def State.cmdSeq (s : State) (h : Hdr) : Nat := ((s.cmd? h.sq h.cid).map (·.seq)).getD 0

/-- A transfer that moves n of the bytes asked for (R281, R285). Its entry is reserved once it can no longer be stopped. -/
def State.doneXfer (s : State) (h : Hdr) (st : Byte) (n : Nat) (part : Bool) (x : Xfer) : State :=
  (s.updCmd h.sq h.cid fun c => { c with part := part, xfer := some x }).done h st 0 0 (BitVec.ofNat 64 n)

end Sys2Proof.Machine
end

