-- ==== Sys2Proof/Machine/Skew.lean ====
section
/-! DEFINITION. Skew surveys (R253, R255): their start across the regatta, the exchanges of each link, and what the root makes of
them. -/

namespace Sys2Proof.Machine

/-- The temperature of the hottest lane (R255). -/
def State.hottest (s : State) : Int :=
  (List.range 16).foldl (fun m k => max m (s.calLane k).now.toInt) (s.calLane 0).now.toInt

/-- Exchanges of a link in a survey (R253). -/
def ttCount : Nat := 1024

/-- The parent sends its next request on a link, with the exchange number (R253). -/
def State.ttRequest (s : State) (p : Nat) : State :=
  let n := (s.port p).ttSent
  (s.sendEvt p 8 s.rtick (placeN 30 1 n)).updPort p fun r => { r with ttSent := n + 1, ttAt := s.now }

/-- This device takes part in a survey that starts now (R253): as parent it sends the first request on each of its downstream
links. -/
def State.startSurvey (s : State) : State :=
  let h := s.hottest
  let s := { s with ez := { s.ez with surveyBusy := true, surveyAgain := false, surveyAt := s.now, links := [], svResult := none,
                                      surveyTemp := h } }
  let s := (List.range 5).foldl (fun s p => s.updPort p fun r => { r with tt := [], ttSent := 0, ttOver := false }) s
  (s.portsOf 2).foldl State.ttRequest s

/-- The root starts a survey on every member, or notes that another is wanted (R255). -/
def State.startSurveys (s : State) : State :=
  if s.ez.surveyBusy then { s with ez := { s.ez with surveyAgain := true } }
  else (s.sendAll s.otherIds .surveyStart).startSurvey

/-- A case in which a survey starts regatta-wide (R255): any member asks the root. -/
def State.wantSurvey (s : State) : State := if s.isTop then s.startSurveys else s.sendTo 0 .surveyAsk

/-- A quotient that the spec does not round: either neighbour where it is not whole (log entry 10). -/
def freeQuot (t : Int) (n : Nat) : Int :=
  let q := t / (n : Int)
  if t % (n : Int) = 0 then q else if Config.adcRoundUp t n then q + 1 else q

/-- Round 2^-8 fu to the nearest fu (R253); half-way the neighbour is free. -/
def nearestFu (t : Int) : Int :=
  if t % 256 = 128 then freeQuot t 256 else (t + 128) / 256

/-- The good exchanges of a link (R253): how many, and the sums of t2 - t1 and of t4 - t3 over them, in units of 2^-8 fu. -/
structure LinkMeas where
  good : Nat
  sum21 : Int
  sum43 : Int
deriving DecidableEq, Repr

/-- The exchanges that both sides have timestamps of: `par` those of the parent, t1 and t4, and `ch` those of the child, t2 and t3. -/
def linkMeas (par ch : List (Nat × Int × Int)) : LinkMeas :=
  par.foldl (fun m x =>
    match ch.find? fun y => y.1 = x.1 with
    | some y => ⟨m.good + 1, m.sum21 + (y.2.1 - x.2.1), m.sum43 + (x.2.2 - y.2.2)⟩
    | none => m) ⟨0, 0, 0⟩

/-- Exchanges below which a link fails (R253). -/
def minGood : Nat := 512

/-- d and theta of a link (R253). -/
def LinkMeas.d (m : LinkMeas) : Int := freeQuot (m.sum21 + m.sum43) (2 * m.good)
def LinkMeas.theta (m : LinkMeas) : Int := freeQuot (m.sum21 - m.sum43) (2 * m.good)

/-- The root has heard of a child's link. -/
def State.noteLink (s : State) (child : BitVec 6) (theta : Option Int) : State :=
  { s with ez := { s.ez with links := SMap.put s.ez.links child.toNat theta } }

/-- A link's result goes to the root. -/
def State.reportLink (s : State) (child : BitVec 6) (theta : Option Int) : State :=
  if s.isTop then s.noteLink child theta else s.sendTo 0 (.linkTheta child theta)

/-- A link has failed the survey (R253). -/
def State.linkFails (s : State) (p : Nat) : State :=
  let s := s.updPort p fun r => { r with ttOver := true }
  let s := State.umpEvent { s with ez := { s.ez with surveyFail := true } } 56 (placeN 32 1 p)
  s.reportLink (s.port p).farId none

/-- A port of the link takes its delay and offset (R253). The parent, which works them out, tells the child, so that both ends report
them (DESIGN CHOICE, log entry 142). -/
def State.hopResult (s : State) (p : Nat) (d theta : Int) : State :=
  s.updPort p fun r => { r with ttOver := true, delay := BitVec.ofInt 32 d, offset := BitVec.ofInt 32 theta }

/-- The result of the downstream link on port p, once the child's timestamps are here (R253). -/
def State.linkResult (s : State) (p : Nat) (ch : List (Nat × Int × Int)) : State :=
  let m := linkMeas (s.port p).tt ch
  if m.good < minGood then s.linkFails p
  else
    let c := (s.port p).farId
    ((s.hopResult p m.d m.theta).sendTo c.toNat (.ttResult m.d m.theta)).reportLink c (some m.theta)

/-- After the last exchange, a lost one too, the parent asks once for the child's timestamps; before, it sends the next request. -/
def State.ttNext (s : State) (p : Nat) : State :=
  let n := (s.port p).ttSent
  if n < ttCount then s.ttRequest p
  else if n = ttCount then
    (s.updPort p fun r => { r with ttSent := n + 1 }).sendTo (s.port p).farId.toNat .ttAsk
  else s

/-- Ticks after which an exchange counts as lost, so that 1,024 of them end within a survey's 5 ms (DESIGN CHOICE, log entry 129). -/
def ttTicks : Nat := 7000

/-- Ticks in which a survey completes (R253): 5 ms. -/
def surveyTicks : Nat := 8000000

/-- An exchange whose reply is overdue is lost, and the next one follows. -/
def State.ttOverdue (s : State) : State :=
  if !s.ez.surveyBusy then s
  else
    ((s.portsOf 2).filter fun p =>
      !(s.port p).ttOver && decide (0 < (s.port p).ttSent) &&
      decide (s.now = (s.port p).ttAt + ttTicks)).foldl State.ttNext s

/-- P of a member (R253): the sum of theta down the path from the root, if every link of it has a result. -/
def State.pathTheta (s : State) : Nat → Nat → Option Int
  | _, 0 => some 0
  | 0, _ => none
  | n + 1, i =>
    match SMap.get? s.ez.links i, SMap.get? s.ez.tree i with
    | some (some t), some p => (State.pathTheta s n p).map fun x => x + t
    | _, _ => none

/-- Hops from the root to any member, at most (R247). -/
def maxHops : Nat := 3

/-- The target of a member (R253): P_X - P_s to the nearest fu; none below a failed link. -/
def State.targetOf (s : State) (i stroke : Nat) : Option Int :=
  match s.pathTheta (maxHops + 1) i, s.pathTheta (maxHops + 1) stroke with
  | some x, some y => some (nearestFu (x - y))
  | _, _ => none

end Sys2Proof.Machine
end

