-- ==== Sys2Proof/Machine/Trigger.lean ====
section
/-! DEFINITION. Trigger groups (R193 to R200): fires, arms, commits, re-arm instants and TRIG_OUT. -/

namespace Sys2Proof.Machine

/-- Fields of TRG_GRPg_CFG (R216). -/
def Group.masterHost (r : Group) : Bool := bit r.cfg 1
def Group.logEn (r : Group) : Bool := bit r.cfg 2
def Group.masterId (r : Group) : Nat := fldN r.cfg 8 6
def Group.masterEng (r : Group) : Nat := fldN r.cfg 16 7

/-- The sender of an arm is the arm master this copy names (R195). -/
def Group.masteredBy (r : Group) (fromHost : Bool) (id eng : Nat) : Bool :=
  if fromHost then r.masterHost && id = 0 else !r.masterHost && r.masterId = id && r.masterEng = eng

/-- The instant of a fire in units of 2^-8 fu. -/
def FireRec.time (f : FireRec) : Nat := f.tick * 131072 + f.fine

/-- Whether a fire is decided before another: time, then regatta ID, then source kind, then number (R196). -/
def FireRec.before (a b : FireRec) : Bool :=
  if a.time ≠ b.time then a.time < b.time
  else if a.id ≠ b.id then a.id < b.id
  else if a.kind ≠ b.kind then a.kind < b.kind
  else a.num < b.num

/-- The first of two fires. -/
def FireRec.pick (a : Option FireRec) (b : FireRec) : Option FireRec :=
  match a with
  | none => some b
  | some x => if b.before x then some b else some x

/-- The decided fire of an armed group among the fires known: the earliest after t_a (R195, R196). -/
def Group.firstFire (r : Group) : Option FireRec :=
  match r.st, r.armAt with
  | .armed, some ta => (r.fires.filter fun f => decide (ta * 131072 < f.time)).foldl FireRec.pick none
  | _, _ => none

/-- A fire becomes known to this device's copy (R194). -/
def State.recordFire (s : State) (g : Nat) (f : FireRec) : State :=
  s.updGroup g fun r => if r.st = .disabled then r else { r with fires := r.fires ++ [f] }

/-- Payload of a FIRE event (R242). -/
def firePayload (g kind num fine : Nat) : BitVec 30 :=
  placeN 30 0 (g % 16) ||| placeN 30 4 (kind % 4) ||| placeN 30 6 (num % 128) ||| placeN 30 13 (fine % 131072)

/-- A member of this device fires group g (R193, R194). -/
def State.fireGroup (s : State) (g kind num tick fine : Nat) : State :=
  if (s.group g).st = .disabled then s
  else s.sendOrdered 1 tick (firePayload g kind num fine) fun s => s.recordFire g ⟨tick, fine, s.ez.id.toNat, kind, num⟩

/-- Fire every group that satisfies p. -/
def State.fireWhere (s : State) (p : Group → Bool) (kind num tick fine : Nat) : State :=
  ((List.range 16).filter fun g => p (s.group g)).foldl (fun s g => s.fireGroup g kind num tick fine) s

/-- What an accepted arm, applied at tick `at_`, does to the group (R195, R197, R198). -/
def Group.arm (r : Group) (ta : Nat) (at_ : Nat) : Group :=
  match r.st with
  | .disabled => r
  | .idle => { r with st := .armed, armAt := some ta, trigHist := (at_, false) :: r.trigHist }
  | .armed => { r with armAt := some ta, trigHist := (at_, false) :: r.trigHist }
  | .dead => { r with held := r.held ++ [ta] }

/-- What an accepted disarm does to the group (R195, R197). -/
def Group.disarm (r : Group) : Group :=
  match r.st with
  | .armed => { r with st := .idle }
  | _ => r

/-- Payload of an ARM event (R242). -/
def armPayload (g : Nat) (dis fromHost : Bool) (eng : Nat) : BitVec 30 :=
  placeN 30 0 (g % 16) ||| placeB 30 4 dis ||| (if fromHost then 0 else placeN 30 5 (eng % 128)) ||| placeB 30 12 fromHost

/-- An arm or disarm is judged against the arm master and waits for its apply instant (R195, R244). -/
def State.recordArm (s : State) (g tick : Nat) (dis fromHost : Bool) (id eng : Nat) : State :=
  if (s.group g).masteredBy fromHost id eng then
    s.addOrdered (tick + orderedDelay) (if dis then .disarm g tick fromHost id eng else .arm g tick fromHost id eng)
  else { s with trg := { s.trg with mismatch := true } }

/-- This device sends an arm or disarm (R194, R195). -/
def State.sendArm (s : State) (g tick : Nat) (dis fromHost : Bool) (eng : Nat) : State :=
  s.sendOrdered 2 tick (armPayload g dis fromHost eng) fun s => s.recordArm g tick dis fromHost s.ez.id.toNat eng

/-- A request by TRG_GRPg_CTRL is taken on the root for a host-mastered group and on the master engine's device otherwise;
elsewhere it is ignored (R195). The event names the master of the group as its sender (DEDUCED, log entry 15). -/
def State.ctrlArm (s : State) (g : Nat) (dis : Bool) : State :=
  let r := s.group g
  if (if r.masterHost then s.ez.id = 0 else s.ez.id.toNat = r.masterId) then
    s.sendArm g s.rtick dis r.masterHost r.masterEng
  else { s with trg := { s.trg with ignored := true } }

/-- TRG_GRP_ARM (R195). -/
def execTrgGrpArm (g : GroupId) (s : State) : Host.Outcome State Fault Refusal :=
  .next (whenReady s fun s => s.ctrlArm g.val false)

/-- TRG_GRP_DISARM (R195). -/
def execTrgGrpDisarm (g : GroupId) (s : State) : Host.Outcome State Fault Refusal :=
  .next (whenReady s fun s => s.ctrlArm g.val true)

/-- EN set to 0, or the claim released: held arms are dropped (R197). -/
def Group.disable (r : Group) : Group := { r with st := .disabled, held := [], fires := [], armAt := none }

/-- Fields of TRG_GRPg_CFG that hold a value (R216). -/
def grpCfgMask : Word32 := 0x377F3F07

/-- A write of TRG_GRPg_CFG in DISABLED or IDLE (R197, R200). -/
def Group.writeCfg (r : Group) (v : Word32) : Group :=
  let r := { r with cfg := v &&& grpCfgMask }
  if r.st = .disabled && bit v 0 then { r with st := .idle } else r

/-- One word of the engine mask. -/
def Group.writeEng (r : Group) (w : Fin 4) (v : Word32) : Group := { r with eng := setFld r.eng (32 * w.val) v }

/-- A write that clears EN (R200). -/
def clearsEn (r : Group) (q : GrpReg) (v : Word32) : Bool := q = .cfg && bit r.cfg 0 && !bit v 0

/-- The write reaches the register (R200): WIN_STATE 3 is refused. -/
def Group.write (r : Group) (q : GrpReg) (v : Word32) : Group :=
  match q with
  | .cfg => r.writeCfg v
  | .win => { r with win := v &&& 0xFF }
  | .tims => { r with tims := v }
  | .eng w => r.writeEng w v

/-- TRG_GRP_CFG_WRITE (R200). -/
def execTrgGrpCfgWrite (g : GroupId) (q : GrpReg) (v : Word32) (s : State) : Host.Outcome State Fault Refusal :=
  .next (whenReady s fun s =>
    let r := s.group g.val
    if clearsEn r q v then s.setGroup g.val { r.disable with cfg := setBit r.cfg 0 false }
    else if r.st = .armed || r.st = .dead then { s with trg := { s.trg with ignored := true } }
    else if q = .cfg && fldN v 28 2 = 3 then { s with trg := { s.trg with refused := true } }
    else s.setGroup g.val (r.write q v))

/-- TRIG_IN_EDGE (R193): the groups that have the edge on TRIG_IN as a member fire at the start of the tick. -/
def execTrigInEdge (rising : Bool) (s : State) : Host.Outcome State Fault Refusal :=
  .next (inRun s fun s =>
    let lv := setBit s.pins.level 4 rising
    let s := { s with pins := { level := lv, hist := (s.rtick, lv) :: s.pins.hist } }
    s.fireWhere (fun r => bit r.cfg 24 && (bit r.cfg 25 = !rising)) 3 0 s.rtick 0)

/-- Record the done instant of a device for a group's present fire (R198). -/
def State.recordDone (s : State) (g id tick : Nat) : State :=
  s.updGroup g fun r => { r with dones := SMap.put r.dones id tick }

/-- This device sends its done instant (R198). -/
def State.sendDone (s : State) (g tick : Nat) : State :=
  s.sendOrdered 3 tick (placeN 30 0 (g % 16)) fun s =>
    s.addOrdered (tick + orderedDelay) (.done g s.ez.id.toNat tick)

/-- The acquisition unit takes fires of group g: SRC = 0 and its GROUP is g (R201). -/
def Acq.bound (a : Acq) (g : Nat) : Bool := !bit a.cfg 12 && fldN a.cfg 16 4 = g

/-- Ticks of an output sample (R202). -/
def Acq.span (a : Acq) : Nat := 800 * 2 ^ fldN a.cfg 8 4

/-- The output sample that holds regatta tick t: n whose interval, from entry to PRE, holds it (R202, R203). -/
def Acq.sampleAt (a : Acq) (t : Nat) : Nat := (t - a.preAt) / a.span

/-- A unit in PRE takes a committed fire (R201, R203). -/
def Acq.takeFire (a : Acq) (f : FireRec) : Acq :=
  { a with st := .post, trig := a.sampleAt f.tick, fire := some f, hostStart := false, stopped := false }

/-- The units that take the fire of group g. -/
def State.boundUnits (s : State) (g : Nat) : List Nat :=
  (List.range 16).filter fun k => (s.acq k).st = .pre && (s.acq k).bound g

/-- What a commit leaves in the group's registers (R197). -/
def Group.committed (r : Group) (f : FireRec) : Group :=
  { r with
    st := .dead
    decided := some f
    fires := []
    dones := r.dones.filter fun d => f.tick + orderedDelay ≤ d.2
    doneAt := f.tick + orderedDelay
    trigHist := (f.tick + orderedDelay, true) :: r.trigHist
    fireTick := f.tick
    fireFine := placeN 32 0 f.fine ||| placeN 32 17 f.kind ||| placeN 32 19 f.num ||| placeN 32 26 f.id
    fireCnt := r.fireCnt + 1 }

/-- The decided fire commits (R196, R197), 320 ticks after its instant. TRIG_OUT will rise DELAY ticks after it (R199). A device
with no bound unit is done at once (R198). -/
def State.commitFire (s : State) (g : Nat) (f : FireRec) : State :=
  let s := s.updGroup g fun r => r.committed f
  let us := s.boundUnits g
  let s := us.foldl (fun s k => s.updAcq k fun a => a.takeFire f) s
  let s := if fldN s.trg.outCfg 24 4 = g && fldN s.trg.outCfg 16 8 ≠ 0 then
      { s with trg := { s.trg with outRise := s.trg.outRise ++ [f.tick + fldN s.trg.outCfg 0 16] } } else s
  if us.isEmpty then s.sendDone g (f.tick + orderedDelay) else s

/-- The decided fire of group g, if its commit instant lies before tick t, commits now (R195, R196): groups are judged by
timestamps, whichever of two commands of one instant comes first. -/
def State.commitBefore (s : State) (g t : Nat) : State :=
  match (s.group g).firstFire with
  | some f => if f.tick + orderedDelay < t then s.commitFire g f else s
  | none => s

/-- What an ordered event does at its apply instant (R195, R198). An earlier fire of the group counts before it. -/
def State.applyOrdered (s : State) (at_ : Nat) (ev : OrdEv) : State :=
  match ev with
  | .arm g t h id e =>
    let s := s.commitBefore g at_
    if (s.group g).masteredBy h id e then s.updGroup g fun r => r.arm t at_
    else { s with trg := { s.trg with mismatch := true } }
  | .disarm g _ h id e =>
    let s := s.commitBefore g at_
    if (s.group g).masteredBy h id e then s.updGroup g fun r => r.disarm
    else { s with trg := { s.trg with mismatch := true } }
  | .done g id t => s.recordDone g id t

/-- The first of the ordered events whose instants are earliest, if it has come. -/
def dueOrd (now : Nat) (l : List Ordered) : Option Ordered :=
  (l.filter fun o => decide (o.at_ ≤ now)).foldl (fun m o => match m with
    | none => some o
    | some x => if o.at_ < x.at_ then some o else some x) none

/-- The list without the first element equal to o. -/
def dropFirst (o : Ordered) : List Ordered → List Ordered
  | [] => []
  | x :: r => if x = o then r else x :: dropFirst o r

/-- An arm or a disarm of group g. -/
def OrdEv.arms (g : Nat) : OrdEv → Bool
  | .arm h _ _ _ _ => h = g
  | .disarm h _ _ _ _ => h = g
  | .done _ _ _ => false

/-- The arms and disarms of group g whose instants have come by tick t are applied, at most n of them. -/
def State.applyArms (g t : Nat) : Nat → State → State
  | 0, s => s
  | n + 1, s =>
    match dueOrd t (s.ez.ordered.filter fun o => o.ev.arms g) with
    | none => s
    | some o =>
      State.applyArms g t n (State.applyOrdered { s with ez := { s.ez with ordered := dropFirst o s.ez.ordered } } o.at_ o.ev)

/-- FIRE_COMMIT (R196, R197): an arm or disarm of the commit's own tick has been applied before it. -/
def execFireCommit (g : GroupId) (s : State) : Host.Outcome State Fault Refusal :=
  .next (inRun s fun s =>
    match (s.group g.val).firstFire with
    | none => s
    | some f =>
      if s.rtick < f.tick + orderedDelay then s
      else (State.applyArms g.val (f.tick + orderedDelay) s.ez.ordered.length s).commitBefore g.val (s.rtick + 1))

/-- The dead time of a fire of tick f whose re-arm instant is t (R198). -/
def deadTime (f t : Nat) : Word32 := BitVec.ofNat 32 (min (t - f) (2 ^ 32 - 1))

/-- Apply the held arms at R: an arm before R is dropped (R198). -/
def Group.rearm (r : Group) (t : Nat) : Group :=
  let ok := r.held.filter fun a => decide (t ≤ a)
  let r := { r with
    st := .idle
    dead := deadTime r.fireTick t
    earlyArm := r.earlyArm || ok.length < r.held.length
    held := []
    dones := [] }
  ok.foldl (fun r a => r.arm a t) r

/-- R, once every device's done instant for the last decided fire is known (R198), whether or not this device's copy has been
disabled meanwhile. -/
def State.rearmInstant (s : State) (g : Nat) : Option Nat :=
  let r := s.group g
  if r.decided.isSome && s.memberIds.all (fun i => SMap.has r.dones i) then
    some (s.memberIds.foldl (fun m i => max m (SMap.get (fun _ => 0) r.dones i)) 0)
  else none

/-- The FIRE packet of the device of the decided fire's source (R209). -/
def State.logFire (s : State) (g : Nat) : State :=
  let r := s.group g
  match r.decided with
  | none => s
  | some f =>
    if r.logEn && f.id = s.ez.id.toNat then
      s.logSend 7 g ([placeN 32 0 g ||| placeN 32 4 f.kind ||| placeN 32 6 f.num] ++ words64 (rtWord f.tick) ++
        [BitVec.ofNat 32 f.fine, r.dead])
    else s

/-- TRIG_OUT_PULSE (R199): the pulse rises on its tick. -/
def execTrigOutPulse (s : State) : Host.Outcome State Fault Refusal :=
  .next (inRun s fun s =>
    match s.trg.outRise with
    | [] => s
    | t :: r =>
      if s.rtick < t then s
      else { s with trg := { s.trg with outHigh := true, outRise := r, outFall := t + fldN s.trg.outCfg 16 8 } })

/-- TRIG_OUT_PULSE_END (R199): the pulse has lasted WIDTH ticks. -/
def execTrigOutPulseEnd (s : State) : Host.Outcome State Fault Refusal :=
  .next (inRun s fun s =>
    if s.trg.outHigh && s.trg.outFall ≤ s.rtick then { s with trg := { s.trg with outHigh := false } } else s)

/-- TRG_OUT_CFG_WRITE (R199). -/
def execTrgOutCfgWrite (v : Word32) (s : State) : Host.Outcome State Fault Refusal :=
  .next (whenReady s fun s =>
    if fldN v 0 16 < 320 then { s with trg := { s.trg with refused := true } }
    else { s with trg := { s.trg with outCfg := v &&& 0x0FFFFFFF } })

end Sys2Proof.Machine
end

