-- ==== Sys2Proof/Machine/Acquire.lean ====
section
/-! DEFINITION. Acquisition units (R201 to R208) and the re-arm of a trigger group (R198). -/

namespace Sys2Proof.Machine

/-- Fields of an acquisition unit's registers (R216). -/
def Acq.kExp (a : Acq) : Nat := fldN a.cfg 8 4
def Acq.preN (a : Acq) : Nat := fldN a.pre 0 25
def Acq.postN (a : Acq) : Nat := fldN a.post 0 25
def Acq.countN (a : Acq) : Nat := fldN a.count 0 25

/-- Bytes of a slot (R204). -/
def Acq.slotBytes (a : Acq) : Nat := ((64 + 4 * (a.preN + a.postN) + 63) / 64) * 64

/-- Whole slots that the region holds (R204). -/
def State.acqSlots (s : State) (a : Acq) : Nat := (s.region (handleIdx a.region)).size / a.slotBytes

/-- The values of the unit's registers lie in the ranges of R216. -/
def acqCfgOk (cfg : Word32) : Bool := fldN cfg 0 5 < 18 && fldN cfg 8 4 < 13
def acqPreOk (v : Word32) : Bool := fldN v 0 25 ≤ 65536
def acqPostOk (v : Word32) : Bool := 1 ≤ fldN v 0 25 && fldN v 0 25 ≤ 16777216
def acqCountOk (v : Word32) : Bool := fldN v 0 25 ≤ 65535

/-- Fields of TRG_ACQk_CFG that hold a value (R216). -/
def acqCfgMask : Word32 := 0x001F1F1F

/-- The checks of R205 on a unit set up as `a` by context c: the status, OK where all pass. -/
def State.acqCheck (s : State) (a : Acq) (c : Nat) : Byte :=
  let r := s.region (handleIdx a.region)
  if !s.liveRegion a.region then stStaleHandle
  else if r.owner ≠ c then stNotOwner
  else if r.kind ≠ .shared || s.acqSlots a = 0 || (a.countN ≠ 0 && s.acqSlots a < a.countN) then stBadCommand
  else if s.mode = .survey then stNotReady
  else stOk

/-- The lane ADC makes a host measurement (R38). -/
def State.adcFree (s : State) (k : Nat) : Bool := !(s.lane k).adcBusy

/-- A unit enters PRE: sample 0 starts (R201, R202). -/
def State.acqPre (s : State) (k : Nat) : State :=
  s.updAcq k fun a => { a with
    st := .pre
    preAt := s.rtick
    samples := []
    nSamples := 0
    trig := 0
    fire := none
    hostStart := false
    stopped := false }

/-- The channel a MUX value selects on lane k, for values 0 to 15 (R36). -/
def acqChan (k : Nat) (mux : BitVec 5) : Nat := 16 * k + mux.toNat

/-- The quantity measured: current for a channel whose active path is PMU in FVMI (R36). -/
def State.adcCurrent (s : State) (k : Nat) (mux : BitVec 5) : Bool :=
  let f := (s.chan (acqChan k mux)).active
  decide (mux.toNat < 16) && fldN f.path 0 2 = 2 && !bit f.pmuCtrl 0

/-- The PMU range of the channel a MUX value selects. -/
def State.adcRange (s : State) (k : Nat) (mux : BitVec 5) : BitVec 3 :=
  if mux.toNat < 16 then fld (s.chan (acqChan k mux)).active.pmuCtrl 1 3 else 0

/-- A unit is armed: WAIT_ADC, and PRE at once where the ADC is free (R201, R202). -/
def State.acqArm (s : State) (k : Nat) : State :=
  let s := s.updAcq k fun a =>
    let m : BitVec 5 := fld a.cfg 0 5
    { a with
      st := .waitAdc
      recno := 0
      done := 0
      mux := m
      qty := s.adcCurrent k m
      range := s.adcRange k m
      setting := false }
  if s.adcFree k then s.acqPre k else s

/-- ACQ_ARM (R205): a register ARM is judged as the context that holds the unit's claim. -/
def execAcqArm (k : GroupId) (s : State) : Host.Outcome State Fault Refusal :=
  .next (whenReady s fun s =>
    let a := s.acq k.val
    let c := s.claim (768 + k.val)
    if a.st ≠ .idle then { s with trg := { s.trg with ignored := true } }
    else if 16 ≤ c || s.acqCheck a c ≠ stOk then { s with trg := { s.trg with refused := true } }
    else s.acqArm k.val)

/-- A unit whose registers are replaced (R205, R277). -/
def Acq.setup (a : Acq) (cfg pre post count region level hyst : Word32) : Acq :=
  { a with
    cfg := cfg &&& acqCfgMask
    pre := pre &&& 0x1FFFFFF
    post := post &&& 0x1FFFFFF
    count := count &&& 0x1FFFFFF
    region := region
    level := level
    hyst := hyst }

/-- The register images of ACQ_SETUP hold values of R216. -/
def acqImageOk (cfg pre post count : Word32) : Bool :=
  acqCfgOk cfg && acqPreOk pre && acqPostOk post && acqCountOk count

/-- ACQ_SETUP (R205). An image with a value that R216 refuses completes BAD_COMMAND after the region's refusals and before SURVEY; a
unit that nobody holds completes NOT_OWNER and a unit that is not IDLE NOT_READY (DESIGN CHOICE, log entry 17). -/
def execAcqSetup (h : Hdr) (unit arm : Byte) (cfg pre post count region level hyst : Word32) (s : State) :
    Host.Outcome State Fault Refusal :=
  .next (queueCmd s h 0x2A [(128, unit.toNat), (136, arm.toNat), (160, cfg.toNat), (192, pre.toNat), (224, post.toNat),
      (256, count.toNat), (288, region.toNat), (320, level.toNat), (352, hyst.toNat)] (unit.toNat < 16 && arm.toNat < 2)
      anyRec false fun s =>
    let k := unit.toNat
    let c := ctxOfQueue h.sq
    let a := (s.acq k).setup cfg pre post count region level hyst
    let st := s.acqCheck a c
    let holder := s.claim (768 + k)
    if (st = stOk || st = stNotReady) && !acqImageOk cfg pre post count then s.done h stBadCommand
    else if st ≠ stOk then s.done h st
    else if holder = 31 then s.done h stNotOwner
    else if holder ≠ c then s.done h stClaimed
    else if (s.acq k).st ≠ .idle then s.done h stNotReady
    else
      let s := s.setAcq k a
      (if arm = 1 then s.acqArm k else s).done h stOk)

/-- The trigger sample is fixed by START (R201, R203). -/
def execAcqStart (k : GroupId) (s : State) : Host.Outcome State Fault Refusal :=
  .next (whenReady s fun s =>
    if (s.acq k.val).st = .pre then
      s.updAcq k.val fun a => { a with
        st := .post
        trig := a.sampleAt s.rtick
        fire := none
        hostStart := true
        stopped := false }
    else s)

/-- ACQ_ADC_FREE (R201). -/
def execAcqAdcFree (k : GroupId) (s : State) : Host.Outcome State Fault Refusal :=
  .next (inRun s fun s =>
    if (s.acq k.val).st = .waitAdc && s.adcFree k.val then s.acqPre k.val else s)

/-- The mean of conversions, to nearest, ties away from zero (R202). -/
def acqMean (l : List Int) : Int := roundDiv (l.foldl (· + ·) 0) l.length

/-- Samples that a unit in PRE keeps: PRE, and two more, since a fire commits 320 ticks after its sample (R196, R203). -/
def Acq.keep (a : Acq) (l : List Int) : List Int := if a.st = .pre then l.take (a.preN + 2) else l

/-- ACQ_SAMPLE (R202): an output sample interval ends. -/
def execAcqSample (k : GroupId) (convs : List Int) (s : State) : Host.Outcome State Fault Refusal :=
  .next (inRun s fun s =>
    let a := s.acq k.val
    let due := a.preAt + a.span * (a.nSamples + 1) ≤ s.rtick
    let more := a.st = .pre || (a.st = .post && a.nSamples < a.trig + a.postN)
    if due && more && convs.length = 2 ^ a.kExp then
      s.setAcq k.val { a with samples := a.keep (acqMean convs :: a.samples), nSamples := a.nSamples + 1 }
    else s)

/-- One step of the crossing count (R208): whether the last sample outside the band was below it, the count, and the first
and last crossing. -/
def crossStep (level : Int) (hyst : Nat) (st : Bool × Nat × Nat × Nat × Nat) (v : Int) : Bool × Nat × Nat × Nat × Nat :=
  let (low, n, first, last, i) := st
  if level + hyst ≤ v then
    if low then (false, n + 1, if n = 0 then i else first, i, i + 1) else (false, n, first, last, i + 1)
  else if v ≤ level - hyst then (true, n, first, last, i + 1)
  else (low, n, first, last, i + 1)

/-- CROSS and PERIOD of samples in time order (R208). With HYST = 0 a sample at LEVEL both crosses and, after the
crossing, lies at the lower edge of the empty band. -/
def crossings (level : Int) (hyst : Nat) (l : List Int) : Nat × Nat :=
  let r := l.foldl (fun st v =>
    let st' := crossStep level hyst st v
    if hyst = 0 && v = level then (true, st'.2) else st') (false, 0, 0, 0, 0)
  (r.2.1, if 2 ≤ r.2.1 then 256 * (r.2.2.2.1 - r.2.2.1) / (r.2.1 - 1) else 0)

/-- Samples of the record in time order: those before the trigger sample, and those from it on (R203). -/
def Acq.record (a : Acq) : List Int × List Int :=
  let all := a.samples.reverse
  let postHave := a.nSamples - a.trig
  let pre := all.take (all.length - postHave)
  (pre.drop (pre.length - a.preN), all.drop (all.length - postHave))

/-- The sixteen words of a record header (R207); `rearm` is R of its fire. -/
def State.acqHeader (s : State) (k : Nat) (rearm : Nat) : List Word32 :=
  let a := s.acq k
  let (pre, post) := a.record
  let l := pre ++ post
  let mn := l.foldl min (l.headD 0)
  let mx := l.foldl max (l.headD 0)
  let firstAt := a.preAt + a.span * (a.trig - pre.length)
  let lastAt := a.preAt + a.span * a.nSamples - 1
  let f := a.fire
  let (cr, per) := crossings a.level.toInt a.hyst.toNat l
  let w0 : Word32 := place 32 0 a.recno ||| placeN 32 16 k ||| (if a.hostStart then 0 else placeN 32 20 (fldN a.cfg 16 4)) |||
    placeN 32 24 a.kExp ||| placeB 32 28 a.hostStart ||| placeB 32 29 (decide (pre.length < a.preN)) |||
    placeB 32 30 (s.spanOverlap firstAt lastAt) |||
    placeB 32 31 (match f with | some f => decide (2 ≤ f.kind) | none => false)
  let w1 : Word32 := place 32 0 a.mux ||| placeB 32 5 a.qty ||| place 32 6 a.range ||| place 32 16 s.ez.id |||
    placeB 32 24 a.stopped ||| placeB 32 25 (s.deratedIn k firstAt lastAt) ||| placeB 32 26 a.setting
  let tf : Nat := match f with | some f => f.tick | none => a.preAt + a.span * a.trig
  let fine : Nat := match f with | some f => f.fine | none => 0
  [w0, w1] ++ words64 (rtWord tf) ++ [BitVec.ofNat 32 fine, BitVec.ofNat 32 pre.length, BitVec.ofNat 32 post.length,
    if a.hostStart || a.stopped then 0 else deadTime tf rearm] ++ words64 (rtWord firstAt) ++
    [BitVec.ofInt 32 mn, BitVec.ofInt 32 mx, BitVec.ofInt 32 (if l.isEmpty then 0 else acqMean l),
     BitVec.ofInt 32 (mx - mn), BitVec.ofNat 32 cr, BitVec.ofNat 32 per]

/-- Bytes of words, least significant byte first (R6). -/
def wordBytes (l : List Word32) : List Byte := (l.map fun w => bytesLE 4 w.toNat).flatten

/-- The unit records no more after this record: COUNT is reached, or STOP ends a run without COUNT (R204). -/
def Acq.lastOne (a : Acq) : Bool := if a.countN = 0 then a.stopped else decide (a.countN ≤ a.done + 1)

/-- ACQ_RECORD_CLOSE (R201, R204, R206): samples, then header, then Log packet; then PRE for the next record, or IDLE after the
last. `rearm` is R of its fire. -/
def State.acqClose (s : State) (k : Nat) (rearm : Nat) : State :=
  let a := s.acq k
  let hdr := s.acqHeader k rearm
  let (pre, post) := a.record
  let slots := s.acqSlots a
  let base := (if slots = 0 then 0 else a.done % slots) * a.slotBytes
  let i := handleIdx a.region
  let s := s.regionWrite i (base + 64) (wordBytes ((pre ++ post).map (BitVec.ofInt 32)))
  let s := s.regionWrite i base (wordBytes hdr)
  let last := a.preAt + a.span * a.nSamples - 1
  let s := if bit a.cfg 20 then s.logSendOf 3 k hdr last else s
  let s := s.updAcq k fun a => { a with done := a.done + 1, lastRec := a.recno, lastHdr := some (a.region, base, last) }
  if a.lastOne then s.updAcq k fun a => { a with st := .idle }
  else (s.updAcq k fun a => { a with recno := a.recno + 1 }).acqPre k

/-- The unit took a fire of group g and still records it. -/
def Acq.recording (a : Acq) (g : Nat) : Bool :=
  a.st = .post && (match a.fire with | some _ => fldN a.cfg 16 4 = g | none => false)

/-- A unit that took the fire has ended its record at `tick`; when it is the last, the device is done at the latest of these ticks
(R198). A copy disabled meanwhile changes nothing of that. -/
def State.acqDone (s : State) (g tick : Nat) : State :=
  let s := s.updGroup g fun r => { r with doneAt := max r.doneAt tick }
  if (List.range 16).any (fun k => (s.acq k).recording g) then s else s.sendDone g (s.group g).doneAt

/-- ACQ_POST_COMPLETE (R201): a record started by START closes at once. -/
def execAcqPostComplete (k : GroupId) (s : State) : Host.Outcome State Fault Refusal :=
  .next (inRun s fun s =>
    let a := s.acq k.val
    if a.st = .post && a.trig + a.postN ≤ a.nSamples then
      let s := s.setAcq k.val { a with st := .close }
      if a.hostStart then s.acqClose k.val 0
      else s.acqDone (fldN a.cfg 16 4) (a.preAt + a.span * (a.trig + a.postN))
    else s)

/-- STOP, and the release of the unit's claim (R201). -/
def State.acqStop (s : State) (k : Nat) : State :=
  let a := s.acq k
  match a.st with
  | .pre | .waitAdc => s.setAcq k { a with st := .idle }
  | .post =>
    let s := s.setAcq k { a with st := .close, stopped := true }
    let s := s.acqClose k 0
    if a.hostStart then s else s.acqDone (fldN a.cfg 16 4) s.rtick
  | _ => s

/-- ACQ_STOP (R201). -/
def execAcqStop (k : GroupId) (s : State) : Host.Outcome State Fault Refusal :=
  .next (whenReady s fun s => s.acqStop k.val)

/-- The claim of a unit is released: PRE and WAIT_ADC end with no record (R201). -/
def State.acqRelease (s : State) (k : Nat) : State :=
  match (s.acq k).st with
  | .pre | .waitAdc => s.updAcq k fun a => { a with st := .idle }
  | _ => s

/-- Units that wait in CLOSE for R of group g. -/
def State.closingUnits (s : State) (g : Nat) : List Nat :=
  (List.range 16).filter fun k =>
    (s.acq k).st = .close && (match (s.acq k).fire with | some _ => fldN (s.acq k).cfg 16 4 = g | none => false)

/-- REARM_INSTANT_KNOWN (R197, R198, R201): the group returns to IDLE with its dead time, its FIRE packet is sent, its
records close, and its held arms are applied or dropped. Where the copy has been disabled meanwhile, only the records close. -/
def execRearmInstantKnown (g : GroupId) (s : State) : Host.Outcome State Fault Refusal :=
  .next (inRun s fun s =>
    match s.rearmInstant g.val with
    | none => s
    | some t =>
      if s.rtick < t then s
      else
        let us := s.closingUnits g.val
        let dead := (s.group g.val).st = .dead
        let s := s.updGroup g.val fun r => if dead then r.rearm t else { r with dones := [] }
        let s := us.foldl (fun s k => s.acqClose k t) s
        if dead then s.logFire g.val else s)

end Sys2Proof.Machine
end

