-- ==== Sys2Proof/Machine/Entry.lean ====
section
/-! DEFINITION. Table entries and microinstructions: fields, and the legality of each field (R82, R85, R88, R89, R101,
R127, R131). -/

namespace Sys2Proof.Machine

/-- Fields of an entry (R82). -/
def eOpc (x : Entry) : Nat := fldN x 120 8
def eCond (x : Entry) : Nat := fldN x 112 8
def eFlg (x : Entry) : Nat := fldN x 104 8
def eCtr (x : Entry) : Nat := fldN x 96 8
def eImm (x : Entry) : Word32 := fld x 64 32
def eTgt (x : Entry) : Nat := fldN x 48 16
def eBind (x : Entry) : Nat := fldN x 44 4
def eBase (x : Entry) : Nat := fldN x 20 24
def eLen (x : Entry) : Nat := fldN x 0 20

/-- An entry from its fields (R82). -/
def mkEntry (opc : Nat) (cond flg ctr : Byte) (imm : Word32) (tgt : BitVec 16) (seg : Seg) : Entry :=
  placeN 128 120 opc ||| place 128 112 cond ||| place 128 104 flg ||| place 128 96 ctr ||| place 128 64 imm |||
  place 128 48 tgt ||| place 128 44 seg.bind ||| place 128 20 seg.base ||| place 128 0 seg.len

/-- No segment. -/
def noSeg : Seg := ⟨0, 0, 0⟩

/-- Opcodes (R85). -/
inductive Opc where
  | nop
  | halt
  | play
  | playn
  | idle
  | jmp
  | jif
  | call
  | ret
  | loop
  | endl
  | matchE
  | wait
  | apgrun
  | apgld
  | setf
  | clrf
  | bar
  | arm
  | fire
  | capt
  | mark
  | ldc
  | sym
deriving DecidableEq, Repr

/-- The values of R85. -/
def Opc.value : Opc → Nat
  | .nop => 0x00
  | .halt => 0x01
  | .play => 0x02
  | .playn => 0x03
  | .idle => 0x04
  | .jmp => 0x08
  | .jif => 0x09
  | .call => 0x0A
  | .ret => 0x0B
  | .loop => 0x0C
  | .endl => 0x0D
  | .matchE => 0x10
  | .wait => 0x11
  | .apgrun => 0x18
  | .apgld => 0x19
  | .setf => 0x20
  | .clrf => 0x21
  | .bar => 0x22
  | .arm => 0x28
  | .fire => 0x29
  | .capt => 0x2A
  | .mark => 0x2B
  | .ldc => 0x30
  | .sym => 0x38

/-- Every opcode, in the order of R85. -/
def Opc.all : List Opc :=
  [.nop, .halt, .play, .playn, .idle, .jmp, .jif, .call, .ret, .loop, .endl, .matchE, .wait, .apgrun, .apgld, .setf, .clrf,
   .bar, .arm, .fire, .capt, .mark, .ldc, .sym]

/-- The opcode of a value (R85). -/
def Opc.of (v : Nat) : Option Opc := Opc.all.find? fun o => o.value = v

/-- Condition codes (R88). -/
def condDefined (c : Nat) : Bool := c ≤ 10

/-- FLAG_SET or FLAG_CLR with an index out of range: it has no class (R88). -/
def condNoClass (x : Entry) : Bool := (eCond x = 5 || eCond x = 6) && 112 ≤ eCtr x

/-- A late condition (R88). -/
def condLate (x : Entry) : Bool :=
  match eCond x with
  | 1 | 2 | 7 | 8 | 9 => true
  | 5 | 6 => 32 ≤ eCtr x && eCtr x < 112
  | _ => false

/-- The opcode permits the condition (R85). -/
def condPermitted (o : Opc) (x : Entry) : Bool :=
  match o with
  | .halt => condDefined (eCond x)
  | .jif => condDefined (eCond x) && eCond x ≠ 0
  | .matchE | .wait => condLate x || condNoClass x
  | _ => eCond x = 0

/-- The CTR values a condition allows (R88). -/
def condCtrOk (x : Entry) : Bool :=
  match eCond x with
  | 4 | 10 => eCtr x < 8
  | 5 | 6 => eCtr x < 112
  | 7 => eCtr x < 5
  | 9 => eCtr x < 16
  | _ => eCtr x = 0

/-- The FLG bits an opcode allows (R85, R89). -/
def flgAllowed (o : Opc) : Nat :=
  match o with
  | .halt | .jif => 7
  | .matchE => 9
  | .wait => 5
  | _ => 0

/-- FLG is legal (R89). -/
def flgOk (o : Opc) (x : Entry) : Bool :=
  let f := eFlg x
  (f &&& flgAllowed o) = f &&
  !(f &&& 1 ≠ 0 && eCond x = 0) && !(f &&& 2 ≠ 0 && eCond x ≠ 4) && !(f &&& 4 ≠ 0 && eCond x ≠ 1 && eCond x ≠ 2)

/-- The register of APGLD and the range of its value (R86). -/
def apgldOk (ctr : Nat) (imm : Word32) : Bool :=
  if ctr ≤ 1 || (8 ≤ ctr && ctr ≤ 15) then fldN imm 24 8 = 0
  else if ctr = 2 then fldN imm 8 24 = 0
  else ctr = 3 || ctr = 4

/-- The parameters of CAPT (R86). -/
def captOk (x : Entry) : Bool :=
  match eCtr x with
  | 0 => eImm x = 0 && eBind x = 0
  | 1 => 1 ≤ (eImm x).toNat && (eImm x).toNat ≤ 65536
  | 2 => (eImm x).toNat ≤ 15
  | 3 => 1 ≤ (eImm x).toNat
  | _ => false

/-- Code 0x04: a field outside its range, or not zero where R85 marks it 0 (R85, R86, R101). -/
def fieldsOk (o : Opc) (x : Entry) : Bool :=
  let imm0 := eImm x = 0
  let tgt0 := eTgt x = 0
  let seg0 := eBind x = 0 && eBase x = 0 && eLen x = 0
  match o with
  | .nop | .ret => eCtr x = 0 && imm0 && tgt0 && seg0
  | .halt => condCtrOk x && tgt0 && seg0
  | .play => eCtr x = 0 && imm0 && tgt0
  | .playn => eCtr x = 0 && eImm x ≠ 0 && tgt0
  | .idle => eCtr x = 0 && tgt0 && seg0
  | .jmp | .call => eCtr x = 0 && imm0 && seg0
  | .jif => condCtrOk x && imm0 && seg0
  | .loop => eCtr x < 8 && eImm x ≠ 0 && tgt0 && seg0
  | .endl => eCtr x < 8 && imm0 && tgt0 && seg0
  | .matchE => condCtrOk x && eImm x ≠ 0 && tgt0
  | .wait => condCtrOk x && seg0
  | .apgrun => eCtr x = 0 && imm0 && eBind x = 0 && eBase x = 0
  | .apgld => apgldOk (eCtr x) (eImm x) && tgt0 && seg0
  | .setf | .clrf => eCtr x < 112 && imm0 && tgt0 && seg0
  | .bar => eCtr x < 16 && seg0
  | .arm | .fire => eCtr x < 16 && imm0 && tgt0 && seg0
  | .capt => captOk x && tgt0 && eBase x = 0 && eLen x = 0
  | .mark => eCtr x = 0 && tgt0 && seg0
  | .ldc => eCtr x < 8 && tgt0 && seg0
  | .sym => eCtr x < 4 && imm0 && tgt0 && seg0

/-- Code 0x05 (R101). -/
def tgtOk (o : Opc) (x : Entry) : Bool :=
  match o with
  | .jmp | .jif | .call | .wait | .bar => eTgt x < 4096
  | .apgrun => eTgt x < 1024
  | _ => true

/-- Code 0x0C (R101). -/
def shortOk (o : Opc) (x : Entry) : Bool :=
  match o with
  | .play | .playn | .matchE | .apgrun => 8 ≤ eLen x
  | .idle | .wait | .bar => 8 ≤ (eImm x).toNat
  | _ => true

/-- A PLAY-class opcode (R82). -/
def Opc.playKind : Opc → Option PlayKind
  | .play => some .play
  | .playn => some .playn
  | .idle => some .idle
  | .matchE => some .matchK
  | .wait => some .wait
  | .bar => some .bar
  | .apgrun => some .apgrun
  | _ => none

/-- Fields of a microinstruction (R127). -/
def uTset (u : Entry) : Nat := fldN u 0 8
def uCmd (u : Entry) : Nat := fldN u 8 16
def uXop (u : Entry) : Nat := fldN u 24 4
def uXsrc (u : Entry) : Nat := fldN u 28 3
def uXlim (u : Entry) : Nat := fldN u 32 3
def uYop (u : Entry) : Nat := fldN u 36 4
def uYsrc (u : Entry) : Nat := fldN u 40 3
def uYlim (u : Entry) : Nat := fldN u 44 3
def uZop (u : Entry) : Nat := fldN u 48 2
def uZimm (u : Entry) : Byte := fld u 56 8
def uDsel (u : Entry) : Nat := fldN u 64 2
def uTopo (u : Entry) : Bool := bit u 66
def uNxt (u : Entry) : Nat := fldN u 68 3
def uJflag (u : Entry) : Nat := fldN u 72 3
def uJtgt (u : Entry) : BitVec 10 := fld u 76 10
def uUfop (u : Entry) : Nat := fldN u 86 2
def uUfidx (u : Entry) : Nat := fldN u 88 2

/-- Reserved bits of a microinstruction (R127). -/
def uRsvd (u : Entry) : Bool :=
  bit u 31 || bit u 35 || bit u 43 || bit u 47 || fldN u 50 6 ≠ 0 || bit u 67 || bit u 71 || bit u 75 || fldN u 90 38 ≠ 0

/-- The microinstruction holds no reserved code and no reserved bit (R128, R130, R131). -/
def microOk (u : Entry) : Bool :=
  uXop u ≤ 6 && uYop u ≤ 8 && uNxt u ≤ 4 && uUfidx u ≠ 3 && !uRsvd u

end Sys2Proof.Machine
end

