-- ==== Sys2Proof/Machine/ApgOps.lean ====
section
/-! DEFINITION. The algorithmic pattern generator (R125 to R136): register operations, the step, the output vector and the
tag tuple. -/

namespace Sys2Proof.Machine

/-- Index register i (R125). -/
def Apg.ixr (a : Apg) (i : Nat) : BitVec 24 := a.ix.getD i 0

/-- One operation on X or Y: new value and carry (R128). `cx` is the carry of X in this step. -/
def apgOp (op : Nat) (cx : Bool) (r lim src : BitVec 24) : BitVec 24 × Bool :=
  let inc := if r = lim then (0, true) else (r + 1, false)
  let dec := if r = 0 then (lim, true) else (r - 1, false)
  match op with
  | 1 => inc
  | 2 => dec
  | 3 => (r + src, decide (2 ^ 24 ≤ r.toNat + src.toNat))
  | 4 => (r - src, decide (r.toNat < src.toNat))
  | 5 => (src, false)
  | 6 => (0, false)
  | 7 => if cx then inc else (r, false)
  | 8 => if cx then dec else (r, false)
  | _ => (r, false)

/-- The operation on Z (R127, R128). -/
def apgZ (op : Nat) (cy : Bool) (z zimm : Byte) : Byte × Bool :=
  let inc : Byte × Bool := (z + 1, decide (z = 255))
  match op with
  | 1 => inc
  | 2 => if cy then inc else (z, false)
  | 3 => (zimm, false)
  | _ => (z, false)

/-- User flags 5 to 7 after UFOP (R127, R129). -/
def userFlags (f : Byte) (op idx : Nat) : Byte :=
  let b := 5 + idx
  match op with
  | 1 => setBit f b true
  | 2 => setBit f b false
  | 3 => setBit f b (!bit f b)
  | _ => f

/-- One APG step (R129, R130). -/
def Apg.step (a : Apg) (u : Entry) : Apg :=
  let (x, cx) := apgOp (uXop u) false a.x (a.ixr (uXlim u)) (a.ixr (uXsrc u))
  let (y, cy) := apgOp (uYop u) cx a.y (a.ixr (uYlim u)) (a.ixr (uYsrc u))
  let (z, cz) := apgZ (uZop u) cy a.z (uZimm u)
  let low : Byte := placeB 8 0 cx ||| placeB 8 1 cy ||| placeB 8 2 (decide (x = a.ixr (uXlim u))) |||
    placeB 8 3 (decide (y = a.ixr (uYlim u))) ||| placeB 8 4 cz
  let fl : Byte := (userFlags a.flags (uUfop u) (uUfidx u) &&& 0xE0) ||| low
  let seqn : BitVec 10 := a.upc + 1
  let upc : BitVec 10 := match uNxt u with
    | 1 => uJtgt u
    | 2 => if bit fl (uJflag u) then uJtgt u else seqn
    | 3 => if bit fl (uJflag u) then seqn else uJtgt u
    | 4 => a.upc
    | _ => seqn
  { a with x := x, y := y, z := z, flags := fl, upc := upc }

/-- The scrambler input vector I (R133): bit 56 is a constant 1, and selector 63 contributes nothing. -/
def scrInput (a : Apg) (sel : Nat) : Bool :=
  if sel < 24 then a.x.getLsbD sel
  else if sel < 48 then a.y.getLsbD (sel - 24)
  else if sel < 56 then a.z.getLsbD (sel - 48)
  else sel = 56

/-- COX_SCRi (R133, R137). -/
def Engine.scrReg (e : Engine) (i : Nat) : Word32 := SMap.get (fun i => BitVec.ofNat 32 (0x3F3F3F00 + i)) e.scr i

/-- The scrambled address SA (R133). -/
def Engine.scramble (e : Engine) (a : Apg) : BitVec 48 :=
  maskOf 48 ((List.range 48).filter fun i =>
    let r := e.scrReg i
    (scrInput a (fldN r 0 6) ^^ scrInput a (fldN r 8 6)) ^^ (scrInput a (fldN r 16 6) ^^ scrInput a (fldN r 24 6)))

/-- The topology index (R134). -/
def Engine.topoIndex (e : Engine) (a : Apg) : Nat :=
  8 * fldN a.y (fldN e.apgCfg 16 5) 3 + fldN a.x (fldN e.apgCfg 8 5) 3

/-- The data word DW (R126, R134). -/
def Engine.dataWord (e : Engine) (a : Apg) (dsel : Nat) (topo : Bool) : Word32 :=
  let d := match dsel with
    | 0 => a.d0
    | 1 => a.d1
    | 2 => ~~~a.d0
    | _ => ~~~a.d1
  if topo && bit e.topo (e.topoIndex a) then ~~~d else d

/-- The output vector O (R126). -/
def Engine.output (e : Engine) (a : Apg) (cmd dsel : Nat) (topo : Bool) : BitVec 96 :=
  place 96 0 (e.scramble a) ||| placeN 96 48 cmd ||| place 96 64 (e.dataWord a dsel topo)

/-- The tuple of a cycle (R136). -/
def Engine.tagOf (e : Engine) (a : Apg) : Tag := ⟨a.x, a.y, a.z, e.scramble a⟩

/-- Pin map entry of channel c (R135). -/
def Engine.pin (e : Engine) (c : Nat) : Word32 := SMap.get (fun _ => 0) e.pinmap c

/-- The mapped APG bit of channel c in UI u (R135). -/
def Engine.apgBit (e : Engine) (o : BitVec 96) (c u : Nat) : Bool :=
  o.getLsbD ((fldN (e.pin c) 0 7 + u * fldN (e.pin c) 8 4) % 96)

/-- Symbol entry n of bank b (R118). -/
def Engine.symEntry (e : Engine) (b n : Nat) : BitVec 16 :=
  let i := 16 * b + n
  fld (SMap.get (fun _ => 0) e.syms (i / 2) : Word32) (16 * (i % 2)) 16

/-- The microinstruction at an address (R131). -/
def Engine.microAt (e : Engine) (a : Nat) : Entry := SMap.get (fun _ => 0) e.micro a

/-- The table entry at an address (R103). -/
def Engine.entryAt (e : Engine) (a : Nat) : Entry := SMap.get (fun _ => BitVec.allOnes 128) e.table a

/-- The reserved codes of a pattern register's value (R124, R118, R133, R134, R135). -/
def patRegOk (r : PatReg) (v : Word32) : Bool :=
  match r with
  | .apgCfg => fldN v 8 5 ≤ 21 && fldN v 16 5 ≤ 21
  | .topo _ => true
  | .scr _ => (List.range 4).all fun i => let x := fldN v (8 * i) 6; x ≤ 56 || x = 63
  | .sym _ => (List.range 2).all fun i => fldN v (16 * i + 1) 3 ≤ 4 && fldN v (16 * i + 4) 3 ≤ 5
  | .pinmap _ => fldN v 0 7 ≤ 95

/-- Bits of a pattern register that hold a value (R137). Bit 7 of a pin map entry, which R135 names no field for while R137 makes the
register RW, is held to be reserved and reads 0 (DESIGN CHOICE, log entry 124). -/
def patRegMask (r : PatReg) : Word32 :=
  match r with
  | .apgCfg => 0x001F1FFF
  | .topo _ => 0xFFFFFFFF
  | .scr _ => 0x3F3F3F3F
  | .sym _ => 0x00FF00FF
  | .pinmap _ => 0x00FFFF7F

/-- Write a pattern register (R124). -/
def Engine.writePat (e : Engine) (r : PatReg) (v : Word32) : Engine :=
  let x := v &&& patRegMask r
  match r with
  | .apgCfg => { e with apgCfg := x }
  | .topo hi => { e with topo := setHalf e.topo hi x }
  | .scr i => { e with scr := SMap.put e.scr i.val x }
  | .sym w => { e with syms := SMap.put e.syms w.val x }
  | .pinmap c => { e with pinmap := SMap.put e.pinmap c.val x }

end Sys2Proof.Machine
end

