-- ==== Sys2Proof/Machine/FrontEnd.lean ====
section
/-! DEFINITION. The pin channel front end (R27 to R50): commits, comparator, PMU and lane ADC, overcurrent and clamp
events. -/

namespace Sys2Proof.Machine

/-- Fields of LN_CH_PATH, LN_CH_CFG and LN_PMU_CTRL (R52). -/
def FeSet.pathCode (f : FeSet) : Nat := fldN f.path 0 2
def FeSet.termEn (f : FeSet) : Bool := bit f.path 2
def FeSet.selfchk (f : FeSet) : Nat := fldN f.path 4 2
def FeSet.rate (f : FeSet) : Nat := fldN f.cfg 0 2
def FeSet.hyst (f : FeSet) : Nat := fldN f.cfg 2 2
def FeSet.clampEn (f : FeSet) : Bool := bit f.cfg 4
def FeSet.ocTrip (f : FeSet) : Bool := bit f.cfg 5
def FeSet.fimv (f : FeSet) : Bool := bit f.pmuCtrl 0
def FeSet.range (f : FeSet) : Nat := fldN f.pmuCtrl 1 3

/-- Bits of each setting register that hold a value, in the value order of LEVEL_WRITE (R52, R277). -/
def feMask (v : Nat) : BitVec 16 :=
  if v = 0 then 0x0037 else if v = 1 then 0x003F else if v = 9 then 0x000F else 0xFFFF

/-- Value v of the thirteen (R277). -/
def FeSet.val (f : FeSet) (v : Nat) : BitVec 16 :=
  match v with
  | 0 => f.path
  | 1 => f.cfg
  | 2 => f.vih
  | 3 => f.vil
  | 4 => f.vtt
  | 5 => f.voh
  | 6 => f.vol
  | 7 => f.clampHi
  | 8 => f.clampLo
  | 9 => f.pmuCtrl
  | 10 => f.pmuForce
  | 11 => f.vcompHi
  | _ => f.vcompLo

/-- Replace value v; reserved bits are ignored (R9). -/
def FeSet.setVal (f : FeSet) (v : Nat) (x : BitVec 16) : FeSet :=
  let x := x &&& feMask v
  match v with
  | 0 => { f with path := x }
  | 1 => { f with cfg := x }
  | 2 => { f with vih := x }
  | 3 => { f with vil := x }
  | 4 => { f with vtt := x }
  | 5 => { f with voh := x }
  | 6 => { f with vol := x }
  | 7 => { f with clampHi := x }
  | 8 => { f with clampLo := x }
  | 9 => { f with pmuCtrl := x }
  | 10 => { f with pmuForce := x }
  | 11 => { f with vcompHi := x }
  | _ => { f with vcompLo := x }

/-- A voltage code (R28). -/
def voltOk (x : BitVec 16) : Bool := x.toNat ≤ 54000

/-- What a connected PMU forces: a voltage in uV with its current limited to 110 % of full scale, or a current with the pin
voltage limited to a window (R35). Currents are in fA. -/
inductive PmuForce where
  | volts (uv : Int) (limit : Nat)
  | amps (fa : Int) (loUv hiUv : Int)
deriving DecidableEq, Repr

/-- The full scale of a RANGE code, in fA: 2 uA, 20 uA, 200 uA, 2 mA and 20 mA (R29, the table of LN_PMU_CTRL). -/
def rangeFa (range : Nat) : Nat := 2000000000 * 10 ^ range

/-- Microvolts of a voltage code (R28). -/
def codeUv (x : BitVec 16) : Int := (x.toNat : Int) * 50 - 500000

/-- What the PMU forces (R28, R29, R35): I = code × full scale / 32,000. -/
def FeSet.pmuForces (f : FeSet) : PmuForce :=
  if f.fimv then .amps (f.pmuForce.toInt * (rangeFa f.range / 32000 : Nat)) (codeUv f.vcompLo) (codeUv f.vcompHi)
  else .volts (codeUv f.pmuForce) (rangeFa f.range * 11 / 10)

/-- What the PMU of a channel forces on its pin, if it is connected (R35). -/
def FeSet.pmu (f : FeSet) : Option PmuForce := if f.pathCode = 2 then some f.pmuForces else none

/-- The force code in the mode being committed (R28, R29). -/
def FeSet.forceOk (f : FeSet) : Bool :=
  if f.fimv then decide (-32000 ≤ f.pmuForce.toInt) && decide (f.pmuForce.toInt ≤ 32000) else voltOk f.pmuForce

/-- Code 1 (R42). -/
def FeSet.codesOk (f : FeSet) : Bool :=
  voltOk f.vih && voltOk f.vil && voltOk f.vtt && voltOk f.voh && voltOk f.vol && voltOk f.clampHi && voltOk f.clampLo &&
  voltOk f.vcompHi && voltOk f.vcompLo && f.forceOk

/-- Largest VIH − VIL of a rate class, in codes of 50 uV (R30). -/
def swingLimit (rate : Nat) : Nat := if rate = 0 then 40000 else if rate = 1 then 24000 else if rate = 2 then 16000 else 65536

/-- Shortest UI of a rate class in fu (R30). -/
def rateUi (rate : Nat) : Nat := if rate = 0 then 256 else if rate = 1 then 128 else 64

/-- Code 4: 50 mV is 1,000 codes (R42). -/
def FeSet.clampBad (f : FeSet) : Bool :=
  f.clampEn && (decide (f.clampHi.toNat < max f.vih.toNat f.vtt.toNat + 1000) ||
    decide (min f.vil.toNat f.vtt.toNat < f.clampLo.toNat + 1000))

/-- m of a MUX code (R56). -/
def muxOf (code : BitVec 2) : Nat := 2 ^ code.toNat

/-- Period divided by m is shorter than `ui` fu. -/
def TSet.fasterThan (t : TSet) (ui : Nat) : Bool := t.period.toNat < ui * muxOf t.mux

/-- The engine whose crew holds channel c (R13). -/
def State.crewOf (s : State) (c : Nat) : Option Nat :=
  (s.engines.find? fun e => e.2.crew.getLsbD c).map (·.1)

/-- A write of the crew that holds channel c has been accepted, waits for its boundary and is faster than `ui` (R71). -/
def State.pendFaster (s : State) (c ui : Nat) : Bool :=
  s.engines.any fun e => e.2.crew.getLsbD c && (match e.2.heat with
    | some h => h.pendTsets.any fun p => decide (p.period.toNat < ui * muxOf p.mux)
    | none => false)

/-- Some timing set the channel holds, or will hold once an accepted write takes effect, is faster than `ui` (R32, "When a
timing-set write meets a rate-class commit"). -/
def State.tsetFaster (s : State) (c ui : Nat) : Bool :=
  s.tsets.any (fun e => e.1 / 256 = c && (s.tset e.1).fasterThan ui) || TSet.reset.fasterThan ui || s.pendFaster c ui

/-- The crew's engine of channel c is RUNNING or HELD (R42, R52). -/
def State.inHeat (s : State) (c : Nat) : Bool := s.engines.any fun e => e.2.crew.getLsbD c && e.2.active

/-- The reason codes that apply, by code (R42): f is the state that would result, a the present one. -/
def State.reasonApplies (s : State) (c : Nat) (a f : FeSet) (code : Nat) : Bool :=
  match code with
  | 1 => !f.codesOk
  | 2 => decide (f.vil.toNat + swingLimit f.rate < f.vih.toNat)
  | 3 => decide (f.vih.toNat < f.vil.toNat) || decide (f.voh.toNat < f.vol.toNat) || decide (f.vcompHi.toNat < f.vcompLo.toNat)
  | 4 => f.clampBad
  | 5 => f.pathCode = 3 || f.rate = 3 || f.hyst = 3 || 5 ≤ f.range
  | 6 => f.rate = 2 && s.dev.variant = .m1
  | 7 => s.tsetFaster c (rateUi f.rate)
  | 8 => s.inHeat c && f.path ≠ a.path
  | 9 => (f.termEn || f.selfchk ≠ 0) && f.pathCode ≠ 1
  | 10 => s.mode = .safe || s.mode = .survey
  | _ => false

/-- The lowest reason code that applies to a channel, 0 where none does (R41, R42). -/
def State.reason (s : State) (c : Nat) (f : FeSet) : Nat :=
  ((List.range 11).find? fun r => s.reasonApplies c (s.chan c).active f r).getD 0

/-- The lowest-numbered failing channel of a commit and its reason (R41). -/
def State.commitCheck (s : State) (k : Nat) (mask : BitVec 16) (f : Nat → FeSet) : Option (Nat × Nat) :=
  ((bitsOf 16 mask).map fun j => (j, s.reason (16 * k + j) (f (16 * k + j)))).find? fun p => p.2 ≠ 0

/-- The driver's effective output: off while the path is not PE or the channel is tripped (R27, R47). -/
def Chan.output (c : Chan) : Drive := if c.tripped || c.active.pathCode ≠ 1 then .off else c.drive

/-- The driver's output node in loopback (R371): VTT while it drives off. -/
def Chan.loopUv (c : Chan) : Int :=
  match c.output with
  | .off => codeUv c.active.vtt
  | .level true => codeUv c.active.vih
  | .level false => codeUv c.active.vil

/-- The comparator input node: the pin, or what self-check selects (R371 and the table of SELFCHK). -/
def Chan.node (c : Chan) : Int :=
  match c.active.selfchk with
  | 0 => c.inputUv
  | 1 => c.loopUv
  | 2 => 300000
  | _ => 1500000

/-- Half the hysteresis in uV (R33). -/
def FeSet.halfHyst (f : FeSet) : Int := (f.hyst : Int) * 5000

/-- The voltage counts as above VOH: the threshold is half the hysteresis higher for a rising input and lower for a falling
one, and the voltage must be above it (R33). -/
def aboveAt (above : Bool) (v th half : Int) : Bool := decide ((if above then th - half else th + half) < v)

/-- The voltage counts as not below VOL, in the same way (R33). -/
def notBelowAt (notBelow : Bool) (v th half : Int) : Bool := decide ((if notBelow then th - half else th + half) ≤ v)

/-- The state of two equal thresholds (R33): the state last reported is kept at the threshold, M becoming L. With hysteresis
the same holds all through the band, where the spec names the threshold alone (DESIGN CHOICE, log entry 109). -/
def equalState (last : Cmp) (v th half : Int) : Cmp :=
  if th + half < v then .H else if v < th - half then .L else match last with | .H => .H | _ => .L

/-- The comparator judges its input node (R33). -/
def Chan.judge (c : Chan) : Chan :=
  let f := c.active
  let v := c.node
  let hi := aboveAt c.aboveVoh v (codeUv f.voh) f.halfHyst
  let lo := notBelowAt c.aboveVol v (codeUv f.vol) f.halfHyst
  let st : Cmp := if f.voh = f.vol then equalState c.cmp v (codeUv f.voh) f.halfHyst
    else if hi then .H else if lo then .M else .L
  { c with aboveVoh := hi, aboveVol := lo, cmp := st }

/-- The comparator judges again at instant `fu`; a change is noted in the channel's history. -/
def Chan.judgeAt (c : Chan) (fu : Nat) : Chan :=
  let d := c.judge
  if d.cmp = c.cmp then d else { d with cmpHist := (fu, d.cmp) :: c.cmpHist }

/-- The code of a comparator state: 0 L, 1 M, 2 H (R45, R216). -/
def Cmp.code : Cmp → Nat
  | .L => 0
  | .M => 1
  | .H => 2

/-- WINDOW_SOURCE_FIRE (R193): the groups whose window source is channel c in this state fire at the start of the tick that
holds instant `fu`. The flit's 7-bit source number is 0 (DESIGN CHOICE, log entry 18). -/
def State.windowFire (s : State) (c fu : Nat) (st : Cmp) : State :=
  s.fireWhere (fun r => bit r.cfg 26 && fldN r.win 0 8 = c && fldN r.cfg 28 2 = st.code) 2 0 (s.regTickOf fu) 0

/-- Channel c becomes `new`, whose comparator has entered the states that its history has more than before: each fires its
window groups, in order (R193). -/
def State.moveChan (s : State) (c : Nat) (new : Chan) : State :=
  let n := new.cmpHist.length - (s.chan c).cmpHist.length
  (new.cmpHist.take n).reverse.foldl (fun s e => s.windowFire c e.1 e.2) (s.setChan c new)

/-- The comparator of channel c judges again; entering another state fires its window groups. -/
def State.judgeChan (s : State) (c fu : Nat) : State := s.moveChan c ((s.chan c).judgeAt fu)

/-- Transitions of a lane's outputs, at instants of the device's clock, count in the windows of 64 ticks in which they fall (R75). A
window that has ended has counted its own already. -/
def Lane.countEdges (l : Lane) (at_ : List Nat) : Lane :=
  { l with actOpen := at_.foldl (fun m t =>
      let w := t / 32768
      if 64 * w < l.actEnd then m else SMap.put m w (SMap.get (fun _ => 0) m w + 1)) l.actOpen }

/-- Channel c changes at instant fu outside the formatter: a change of its output is an edge of its history and a transition of its lane
(R75), and its comparator judges again (R33). -/
def State.changeChan (s : State) (c fu : Nat) (f : Chan → Chan) : State :=
  let old := s.chan c
  let new := f old
  if new.output = old.output then s.moveChan c (new.judgeAt fu)
  else
    (s.moveChan c ({ new with driveHist := (fu, new.output) :: new.driveHist.take histKeep }.judgeAt fu)).updLane (c / 16)
      fun l => l.countEdges [fu]

/-- Something changes that R39 or R40 gives a settling time: any value but LN_CH_CFG. A change of LN_CH_PATH or LN_PMU_CTRL alone,
which moves no DAC, sets BUSY too (DESIGN CHOICE, log entry 110). -/
def FeSet.settles (a f : FeSet) : Bool := { f with cfg := a.cfg } ≠ a

/-- The lane's acquisition unit samples channel c with a path, mode or range that a commit changes (R202). -/
def State.acqDisturbed (s : State) (c : Nat) (a f : FeSet) : Bool :=
  let u := s.acq (c / 16)
  u.st ≠ .idle && u.mux.toNat = c % 16 && (f.pathCode ≠ a.pathCode || f.fimv ≠ a.fimv || f.range ≠ a.range)

/-- One channel takes its new active half; SAFE_OFF clears (R41, R50). -/
def State.applyChan (s : State) (c : Nat) (f : FeSet) : State :=
  let a := (s.chan c).active
  let s := if s.acqDisturbed c a f then s.updAcq (c / 16) fun u => { u with setting := true } else s
  s.changeChan c (s.now * 512) fun r => { r with
    active := f
    drive := if f.pathCode = 1 then r.drive else .off
    safeOff := false
    compliance := r.compliance && f.pathCode = 2 && f.fimv
    curLimit := r.curLimit && f.pathCode = 2 && !f.fimv }

/-- A commit of channels of lane k (R41 to R44): the state, and the lowest failing channel and reason where it is
refused. -/
def State.commit (s : State) (k : Nat) (mask : BitVec 16) (f : Nat → FeSet) : State × Option (Nat × Nat) :=
  match s.commitCheck k mask f with
  | some (j, r) =>
    (s.updLane k fun l => { l with
      lvlRefused := true
      lvlReason := BitVec.ofNat 4 r
      lvlChannel := BitVec.ofNat 4 j
      lvlSeq := l.lvlSeq + 1 }, some (j, r))
  | none =>
    let busy := (bitsOf 16 mask).any fun j => FeSet.settles (s.chan (16 * k + j)).active (f (16 * k + j))
    let s := (bitsOf 16 mask).foldl (fun s j => s.applyChan (16 * k + j) (f (16 * k + j))) s
    (s.updLane k fun l => { l with
      lvlRefused := false
      lvlReason := 0
      lvlChannel := 0
      lvlBusy := l.lvlBusy || busy
      lvlSeq := l.lvlSeq + 1 }, none)

/-- LN_LVL_COMMIT (R41, R42): a write of 0 does nothing. -/
def execLnLvlCommit (lane : LaneId) (v : Word32) (s : State) : Host.Outcome State Fault Refusal :=
  .next (whenReady s fun s =>
    let m : BitVec 16 := fld v 0 16
    if m = 0 then s else (s.commit lane.val m fun c => (s.chan c).staged).1)

/-- The values a LEVEL_WRITE gives a channel: those SEL does not name come from the active half (R277). -/
def levelSet (a : FeSet) (f : LevelFields) : FeSet :=
  (List.range 13).foldl (fun x v => if bit f.sel v then x.setVal v (f.vals.getD v 0) else x) a

/-- A channel of the mask is claimed by another holder (R291). -/
def State.chanClaimed (s : State) (k ctx : Nat) (mask : BitVec 16) : Bool :=
  (bitsOf 16 mask).any fun j => s.claim (16 * k + j) ≠ 31 && s.claim (16 * k + j) ≠ ctx

/-- The fields of a LEVEL_WRITE entry (R277). -/
def levelFields (lane : Byte) (f : LevelFields) : List (Nat × Nat) :=
  [(128, lane.toNat), (144, f.chmask.toNat), (160, f.sel.toNat)] ++
  (List.range 13).map fun v => (192 + 16 * v, (f.vals.getD v 0).toNat)

/-- LEVEL_WRITE (R44, R277). -/
def execLevelWrite (h : Hdr) (lane : Byte) (f : LevelFields) (s : State) : Host.Outcome State Fault Refusal :=
  .next (queueCmd s h 0x11 (levelFields lane f) (lane.toNat < 16 && fldN f.sel 13 3 = 0) anyRec false fun s =>
    let k := lane.toNat
    if f.chmask = 0 then s.done h stOk
    else if s.chanClaimed k (ctxOfQueue h.sq) f.chmask then s.done h stClaimed
    else
      match s.commit k f.chmask (fun c => levelSet (s.chan c).active f) with
      | (s, none) => s.done h stOk
      | (s, some (j, r)) =>
        s.done h (if s.mode = .safe then stDeviceSafe else if s.mode = .survey then stNotReady else stBadCommand)
          (placeN 32 0 r ||| placeN 32 4 j))

/-- DAC_SETTLED (R43, R44). -/
def execDacSettled (lane : LaneId) (s : State) : Host.Outcome State Fault Refusal :=
  .next (inRun s fun s => s.updLane lane.val fun l => { l with lvlBusy := false })

/-- A START that makes no conversion (R36, R38). -/
def Lane.adcRefuse (l : Lane) (stat : BitVec 2) : Lane :=
  { l with adcStat := stat, adcValid := true, adcSeq := l.adcSeq + 1 }

/-- ADC_START (R36 to R38): a write of LN_ADC_CTRL. A reserved MUX is judged before the acquisition unit (DEDUCED, log
entry 10). -/
def execAdcStart (lane : LaneId) (v : Word32) (s : State) : Host.Outcome State Fault Refusal :=
  .next (whenReady s fun s =>
    let k := lane.val
    let s := s.updLane k fun l => { l with adcMux := fld v 0 5, adcAvg := fld v 8 4 }
    if !bit v 31 || (s.lane k).adcBusy then s
    else if 18 ≤ fldN v 0 5 then s.updLane k fun l => l.adcRefuse 3
    else if (s.acq k).st ≠ .idle then s.updLane k fun l => l.adcRefuse 1
    else s.updLane k fun l => { l with
      adcBusy := true
      adcValid := false
      adcRun := fld v 0 5
      adcRunAvg := fld v 8 4 })

/-- Samples a measurement converts: two to discard where the input has changed, then 2^AVG_LOG2, AVG_LOG2 acting as at most
12 (R37, R52). -/
def Lane.adcSkip (l : Lane) : Nat := if l.adcRun = l.adcPrev then 0 else 2
def Lane.adcCount (l : Lane) : Nat := 2 ^ min l.adcRunAvg.toNat 12

/-- The mean of the samples; a mean that is not whole is rounded up or down as the device does (R37, log entry 10). -/
def adcMean (l : List Int) : Int :=
  let t : Int := l.foldl (· + ·) 0
  let q := t / (l.length : Int)
  if t % (l.length : Int) = 0 then q else if Config.adcRoundUp t l.length then q + 1 else q

/-- ADC_MEASUREMENT_DONE (R37). -/
def execAdcMeasurementDone (lane : LaneId) (samples : List Int) (raw : BitVec 18) (overRange : Bool) (s : State) :
    Host.Outcome State Fault Refusal :=
  .next (inRun s fun s =>
    let l := s.lane lane.val
    if l.adcBusy && samples.length = l.adcSkip + l.adcCount then
      s.setLane lane.val { l with
        adcBusy := false
        adcPrev := l.adcRun
        adcValue := BitVec.ofInt 32 (adcMean (samples.drop l.adcSkip))
        adcRaw := raw
        adcSeq := l.adcSeq + 1
        adcStat := if overRange then 2 else 0
        adcValid := true }
    else s)

/-- COMPARATOR_EDGE (R33, R193): the pin of channel c reaches `uv` at fu `fine` of the present tick. -/
def execComparatorEdge (ch : ChanId) (fine : Fin 512) (uv : Int) (s : State) : Host.Outcome State Fault Refusal :=
  .next (inRun s fun s =>
    (s.updChan ch.val fun c => { c with inputUv := uv }).judgeChan ch.val (s.now * 512 + fine.val))

/-- Detail word of a front-end event (R48). -/
def feDetail (mask : BitVec 16) (kind : Nat) (tripped : Bool) : Word32 :=
  place 32 0 mask ||| placeN 32 16 kind ||| placeB 32 18 tripped

/-- Channels of the lane whose latch was 0 and that an event now sets; the event goes to the Umpire (R48). -/
def State.ocEvent (s : State) (k : Nat) (mask trips : BitVec 16) (kind : Nat) : State :=
  let new := mask &&& ~~~(s.lane k).evtOc
  let s := s.updLane k fun l => { l with evtOc := l.evtOc ||| mask }
  if new = 0 then s else s.umpEvent k (feDetail new kind (new &&& trips ≠ 0))

/-- The channels of a lane that satisfy p. -/
def State.laneMask (s : State) (k : Nat) (p : Chan → Bool) : BitVec 16 :=
  maskOf 16 ((List.range 16).filter fun j => p (s.chan (16 * k + j)))

/-- A tripped channel drives off and disconnects its termination (R47). -/
def State.tripChans (s : State) (k : Nat) (mask : BitVec 16) : State :=
  (bitsOf 16 mask).foldl (fun s j => s.changeChan (16 * k + j) (s.now * 512) fun c => { c with tripped := true }) s

/-- DRIVER_OVERCURRENT (R46 to R48). -/
def execDriverOvercurrent (lane : LaneId) (mask : BitVec 16) (s : State) : Host.Outcome State Fault Refusal :=
  .next (inRun s fun s =>
    let k := lane.val
    let trips := mask &&& s.laneMask k fun c => c.active.ocTrip
    (s.tripChans k trips).ocEvent k mask trips 0)

/-- PMU_OVERCURRENT (R46 to R48): only a connected PMU in FVMI, and none in SAFE (R50). -/
def execPmuOvercurrent (lane : LaneId) (mask : BitVec 16) (s : State) : Host.Outcome State Fault Refusal :=
  .next (inRun s fun s =>
    let k := lane.val
    let m := mask &&& s.laneMask k fun c => c.active.pathCode = 2 && !c.active.fimv
    if s.mode = .safe then s
    else
      let s := (bitsOf 16 m).foldl (fun s j => s.updChan (16 * k + j) fun c => { c with curLimit := true }) s
      s.ocEvent k m 0 1)

/-- CLAMP_EVENT (R46, R48): only enabled clamps, and none in SAFE (R50). -/
def execClampEvent (lane : LaneId) (mask : BitVec 16) (s : State) : Host.Outcome State Fault Refusal :=
  .next (inRun s fun s =>
    let k := lane.val
    let m := mask &&& s.laneMask k fun c => c.active.clampEn
    if s.mode = .safe then s
    else
      let new := m &&& ~~~(s.lane k).evtClamp
      let s := s.updLane k fun l => { l with evtClamp := l.evtClamp ||| m }
      if new = 0 then s else s.umpEvent (16 + k) (feDetail new 2 false))

/-- LN_EVT_STATUS_CLEAR (R47): the driver and termination of a channel whose OC bit is cleared return to its active path. -/
def execLnEvtStatusClear (lane : LaneId) (v : Word32) (s : State) : Host.Outcome State Fault Refusal :=
  .next (whenReady s fun s =>
    let k := lane.val
    let oc : BitVec 16 := fld v 0 16 &&& (s.lane k).evtOc
    let s := s.updLane k fun l => { l with evtOc := w1c l.evtOc (fld v 0 16), evtClamp := w1c l.evtClamp (fld v 16 16) }
    (bitsOf 16 oc).foldl (fun s j =>
      s.changeChan (16 * k + j) (s.now * 512) fun c => { c with tripped := false, curLimit := false }) s)

/-- PMU_COMPLIANCE (R35): a connected PMU in FIMV reaches or leaves its voltage limit; no Umpire event. -/
def execPmuCompliance (ch : ChanId) (limit : Bool) (s : State) : Host.Outcome State Fault Refusal :=
  .next (inRun s fun s =>
    s.updChan ch.val fun c => { c with compliance := limit && c.active.pathCode = 2 && c.active.fimv })

end Sys2Proof.Machine
end

