-- ==== Sys2Proof/Machine/TimOps.lean ====
section
/-! DEFINITION. What the TIM units share (R172 to R185): gates, results and disarm. -/

namespace Sys2Proof.Machine

/-- Fields of TIM_CFG and TIM_SEL (R191). -/
def Tim.startSrc (t : Tim) : Nat := fldN t.cfg 0 5
def Tim.stopSrc (t : Tim) : Nat := fldN t.cfg 8 5
def Tim.gateSrc (t : Tim) : Nat := fldN t.cfg 16 3
def Tim.engine (t : Tim) : Nat := fldN t.sel 0 7
def Tim.flag (t : Tim) : Nat := fldN t.sel 8 7

/-- Flag f as engine e sees it now (R80, R173). -/
def State.flagNow (s : State) (e f : Nat) : Bool :=
  if f < 32 then bit (s.eng e).regs.eflags f
  else if f < 96 then bit s.flags.dev (f - 32)
  else bit s.flags.reg (f - 96)

/-- The gate of a unit now (R173). -/
def State.timGateNow (s : State) (u : Nat) : Bool :=
  let t := s.tim u
  let g :=
    if t.gateSrc ≤ 3 then bit s.pins.level t.gateSrc
    else if t.gateSrc = 4 then s.flagNow t.engine t.flag
    else true
  g ^^ bit t.cfg 19

/-- Flag f as engine e saw it on a regatta tick (R80, R173). -/
def State.flagOn (s : State) (e f tick : Nat) : Bool :=
  if f < 32 then bit (histAt (0 : Word32) tick (s.eng e).flagHist) f
  else if f < 96 then bit (histAt (0 : Word64) tick s.flags.devHist) (f - 32)
  else bit (histAt (0 : BitVec 16) tick s.flags.regHist) (f - 96)

/-- The gate of a unit as sampled on a regatta tick (R173). -/
def State.timGateOn (s : State) (u tick : Nat) : Bool :=
  let t := s.tim u
  let g :=
    if t.gateSrc ≤ 3 then bit (histAt (0 : BitVec 5) tick s.pins.hist) t.gateSrc
    else if t.gateSrc = 4 then s.flagOn t.engine t.flag tick
    else true
  g ^^ bit t.cfg 19

/-- The gate is sampled: WAIT_GATE and ARMED follow it (R173, R175). -/
def State.timSample (s : State) (u : Nat) : State :=
  let g := s.timGateNow u
  s.updTim u fun t => { t with
    gate := g
    st := match t.st with
      | .waitGate => if g then .armed else .waitGate
      | .armed => if g then .armed else .waitGate
      | x => x }

/-- The result codes (R185). -/
def timOk : BitVec 3 := 0
def timTimeout : BitVec 3 := 1
def timCancelled : BitVec 3 := 2

/-- Dead time after a result (R175). -/
def timDead : Nat := 16

/-- The regatta time now, in 2^-8 fu. -/
def State.rtFine (s : State) : Nat := (s.regOf (s.now * 512) * 256).toNat

/-- The Log packet of a result (R209). -/
def State.timLog (s : State) (u : Nat) (r : TimResult) : State :=
  if bit (s.tim u).cfg 20 then
    s.logSendOf 2 u ([placeN 32 0 u ||| place 32 5 r.code ||| placeB 32 8 r.refAbsent ||| placeB 32 9 r.derated |||
      place 32 16 r.seq] ++ words64 r.interval ++ words64 (rtWord (fineTick r.start).1) ++
      [BitVec.ofNat 32 (fineTick r.start).2]) r.endTick
  else s

/-- A STARTED measurement gives its result at regatta time `at_`, in 2^-8 fu (R175, R177, R183 to R185). The unit is IDLE
when none is left, and in its dead time otherwise. -/
def State.timResult (s : State) (u : Nat) (code : BitVec 3) (interval : Word64) (at_ : Nat) : State :=
  let t := s.tim u
  let r : TimResult := {
    seq := t.seq + 1
    code := code
    refAbsent := s.spanOverlap (fineTick t.startT).1 (fineTick at_).1
    derated := s.deratedIn (u / 2) (fineTick t.startT).1 (fineTick at_).1
    interval := if code = timOk then interval else 0
    start := t.startT
    endTick := (fineTick at_).1
    consumed := false }
  let unread : Bool := match t.result with
    | some x => !x.consumed
    | none => false
  let left := t.left.map (· - 1)
  let s := s.setTim u { t with
    seq := t.seq + 1
    result := some r
    lost := if unread then satInc t.lost else t.lost
    left := left
    stopAt := none
    st := if left = some 0 then .idle else .dead
    deadEnd := (fineTick at_).1 + timDead }
  s.timLog u r

/-- A completed measurement (R177, R178, R193): its OK result, and the fire of the groups that have the unit as a member. -/
def State.timStopped (s : State) (u at_ : Nat) : State :=
  let t := s.tim u
  let s := s.timResult u timOk (BitVec.ofInt 64 ((at_ : Int) - t.startT - t.ofs.toInt)) at_
  s.fireWhere (fun g => bit g.tims u) 1 u (fineTick at_).1 (fineTick at_).2

/-- A stop edge of a tick that has passed gives its result (R185). -/
def State.settleStop (s : State) (u : Nat) : State :=
  match (s.tim u).stopAt with
  | some a => if (fineTick a).1 < s.rtick then s.timStopped u a else s
  | none => s

/-- The stop edges of the ticks that have passed. -/
def State.settleStops (s : State) : State := (s.tims.map (·.1)).foldl State.settleStop s

/-- The last tick of a measurement's timeout (R176). -/
def Tim.expiry (t : Tim) : Nat := (fineTick t.startT).1 + (if t.timeout = 0 then 2 ^ 40 else t.timeout.toNat)

/-- The unit awaits a start edge on a tick: armed by then, its dead time over (R175). -/
def Tim.awaitsStart (t : Tim) (tick : Nat) : Bool :=
  ((t.st = .waitGate || t.st = .armed) && decide (t.armAt ≤ tick)) || (t.st = .dead && decide (t.deadEnd ≤ tick))

/-- A start edge at regatta time `at_`, in 2^-8 fu (R173, R175): it counts if the gate was true on its tick. -/
def State.timStart (s : State) (u at_ : Nat) : State :=
  let t := s.tim u
  let k := (fineTick at_).1
  if t.awaitsStart k && s.timGateOn u k && decide (k ≤ s.rtick) then
    s.setTim u { t with
      st := .started
      gate := true
      startT := at_
      stopAt := none }
  else s

/-- A stop edge at regatta time `at_`, in 2^-8 fu (R175 to R177): the first one at or after the start, by the end of the timeout's
last tick. One of the present tick gives its result when the tick has passed (R185). -/
def State.timStop (s : State) (u at_ : Nat) : State :=
  let t := s.tim u
  let k := (fineTick at_).1
  if t.st ≠ .started || t.stopAt.isSome || at_ < t.startT || t.expiry < k || s.rtick < k then s
  else if k < s.rtick then s.timStopped u at_
  else s.setTim u { t with stopAt := some at_ }

/-- An edge of an internal source (R172), on the start and stop inputs that select it; `p` looks at the unit and the code of its
source. -/
def State.timEdges (s : State) (p : Tim → Nat → Bool) (at_ : Nat) : State :=
  (s.tims.map (·.1)).foldl (fun s u =>
    let s := if p (s.tim u) (s.tim u).startSrc then s.timStart u at_ else s
    if p (s.tim u) (s.tim u).stopSrc then s.timStop u at_ else s) s

/-- A unit returns to IDLE; a STARTED measurement is CANCELLED unless its stop edge lies before the present tick (R175, R185). -/
def State.timDisarm (s : State) (u : Nat) : State :=
  let s := s.settleStop u
  let s := if (s.tim u).st = .started then s.timResult u timCancelled 0 s.rtFine else s
  s.updTim u fun t => { t with st := .idle, left := none, gate := false, stopAt := none }

/-- The unit's sources or its gate use TIM_SEL.ENGINE (R172, R173, R175). -/
def Tim.usesEngine (t : Tim) (e : Nat) : Bool :=
  t.engine = e && (t.startSrc = 27 || t.stopSrc = 27 || t.gateSrc = 4)

/-- A per-engine reset returns the units that use the engine to IDLE (R175). -/
def State.timsOfReset (s : State) (e : Nat) : State :=
  ((List.range 32).filter fun u => (s.tim u).st ≠ .idle && (s.tim u).usesEngine e).foldl (fun s u => s.timDisarm u) s

end Sys2Proof.Machine
end

