-- ==== Sys2Proof/Machine/Timing.lean ====
section
/-! DEFINITION. Timing sets and activity compensation (R53 to R79): the checks of TSET_WRITE and its refusal detail, the
application of a write, activity windows and the read ports. -/

namespace Sys2Proof.Machine

/-- m of a timing set (R56). -/
def TSet.m (t : TSet) : Nat := muxOf t.mux

/-- A used edge: its EDGE code (R70), its UI and its place in the cycle. -/
abbrev UsedEdge := Nat × Nat × Nat

/-- The places of a multiplexed edge (R65). -/
def TSet.muxEdges (t : TSet) (code e : Nat) : List UsedEdge :=
  (List.range t.m).map fun u => (code, u, e + u * t.period.toNat / t.m)

/-- The used drive edges in required order, D_OFF apart (R66). -/
def TSet.driveEdges (t : TSet) : List UsedEdge :=
  if 1 < t.m then t.muxEdges 1 t.dData.toNat
  else if t.fmt = 0 then [(0, 0, t.dOn.toNat), (1, 0, t.dData.toNat)]
  else if t.fmt = 4 then [(1, 0, t.dData.toNat)]
  else [(0, 0, t.dOn.toNat), (1, 0, t.dData.toNat), (2, 0, t.dRet.toNat)]

/-- The used strobe edges in required order (R66). -/
def TSet.strobeEdges (t : TSet) : List UsedEdge :=
  if 1 < t.m then t.muxEdges 4 t.stbOpen.toNat
  else if t.stb then [(4, 0, t.stbOpen.toNat), (5, 0, t.stbClose.toNat)]
  else [(4, 0, t.stbOpen.toNat)]

/-- The edges that bound the drive path: D_OFF counts with the others (R68). -/
def TSet.driveAll (t : TSet) : List UsedEdge := t.driveEdges ++ [(3, 0, t.dOff.toNat)]

/-- The earliest and the latest of some edges; the first listed where several are equal. -/
def firstEdge : List UsedEdge → UsedEdge
  | [] => (0, 0, 0)
  | e :: r => r.foldl (fun a b => if b.2.2 < a.2.2 then b else a) e
def lastEdge : List UsedEdge → UsedEdge
  | [] => (0, 0, 0)
  | e :: r => r.foldl (fun a b => if a.2.2 < b.2.2 then b else a) e

/-- A refusal: RULE, EDGE, PARTNER, UI and, for rule 8, the other timing set (R70). -/
structure TsetFail where
  rule : Nat
  edge : Nat := 0
  partner : Nat := 7
  ui : Nat := 0
  other : Nat := 0
deriving DecidableEq, Repr

/-- Rule 8 on one path, of written set a against held set b: the sum tail(other) + head(written) first (R68, R70). -/
def boundaryPath (pa pb : Nat) (a b : List UsedEdge) (other : Nat) : Option TsetFail :=
  if (pb : Int) - (lastEdge b).2.2 + (firstEdge a).2.2 < 64 then
    some { rule := 8, edge := (firstEdge a).1, partner := (lastEdge b).1, other := other }
  else if (pa : Int) - (lastEdge a).2.2 + (firstEdge b).2.2 < 64 then
    some { rule := 8, edge := (lastEdge a).1, partner := (firstEdge b).1, other := other }
  else none

/-- Rule 8 against one held set: the drive path before the strobe path (R70). -/
def boundaryAgainst (a b : TSet) (other : Nat) : Option TsetFail :=
  match boundaryPath a.period.toNat b.period.toNat a.driveAll b.driveAll other with
  | some f => some f
  | none => boundaryPath a.period.toNat b.period.toNat a.strobeEdges b.strobeEdges other

/-- The first element at which f answers. -/
def firstSome {α β : Type} (f : α → Option β) : List α → Option β
  | [] => none
  | a :: r => match f a with
    | some b => some b
    | none => firstSome f r

/-- Rule 8 against every set the channel holds after the write, lowest index first (R68, R70). -/
def State.boundary (s : State) (c idx : Nat) (t : TSet) : Option TsetFail :=
  firstSome (fun i => boundaryAgainst t (if i = idx then t else s.tset (256 * c + i)) i) (List.range 256)

/-- Rules 9 and 10: the first pair of neighbours that p refuses. -/
def pairFail (rule : Nat) (p : Nat → Nat → Bool) : List UsedEdge → Option TsetFail
  | a :: b :: r =>
    if p a.2.2 b.2.2 then some { rule := rule, edge := b.1, partner := a.1, ui := b.2.1 } else pairFail rule p (b :: r)
  | _ => none

/-- Rule 7: the first failing field, and the lowest failing UI of a multiplexed position (R70). -/
def TSet.rangeFail (t : TSet) : Option TsetFail :=
  let p := t.period.toNat
  let bad (code e : Nat) : Option TsetFail := if p ≤ e then some { rule := 7, edge := code } else none
  let badMux (code e : Nat) : Option TsetFail :=
    (((if 1 < t.m then t.muxEdges code e else [(code, 0, e)]).find? fun x => decide (p ≤ x.2.2)).map
      fun x => { rule := 7, edge := code, ui := x.2.1 })
  firstSome id [bad 0 t.dOn.toNat, badMux 1 t.dData.toNat, bad 2 t.dRet.toNat, bad 3 t.dOff.toNat, badMux 4 t.stbOpen.toNat,
    bad 5 t.stbClose.toNat]

/-- The lowest failing rule of a channel, rules 1 to 10 (R3, R67, R70). -/
def State.tsetCheck (s : State) (c idx : Nat) (t : TSet) : Option TsetFail :=
  let p := t.period.toNat
  if p < 512 then some { rule := 1, edge := 6 }
  else if 1 < t.m && p % t.m ≠ 0 then some { rule := 2, edge := 7 }
  else if s.dev.variant = .m1 && t.fasterThan 128 then some { rule := 3, edge := 7 }
  else if t.fasterThan (rateUi (s.chan c).active.rate) then some { rule := 4, edge := 7 }
  else if 4 < t.fmt.toNat then some { rule := 5 }
  else if 1 < t.m && (t.fmt ≠ 0 || t.stb) then some { rule := 6 }
  else firstSome id [t.rangeFail, s.boundary c idx t, pairFail 9 (fun a b => decide (b ≤ a)) t.driveEdges,
    pairFail 9 (fun a b => decide (b ≤ a)) t.strobeEdges, pairFail 10 (fun a b => decide (b < a + 64)) t.driveEdges,
    pairFail 10 (fun a b => decide (b < a + 64)) t.strobeEdges]

/-- The channel part that a record gives (R277). -/
def TSet.withRec (t : TSet) (r : TsetRec) : TSet :=
  { t with
    fmt := fld r.fmt 0 3
    stb := bit r.fmt 4
    dOn := r.dOn
    dData := r.dData
    dRet := r.dRet
    dOff := r.dOff
    stbOpen := r.stbOpen
    stbClose := r.stbClose }

/-- The timing set that results on channel c (R69). -/
def tsetResult (old : TSet) (c : Nat) (mux : BitVec 2) (period : BitVec 40) (recs : List TsetRec) : TSet :=
  let t := { old with period := period, mux := mux }
  match recs.find? fun r => r.ch.toNat = c with
  | some r => t.withRec r
  | none => t

/-- The channels of a crew, rising. -/
def Engine.chans (e : Engine) : List Nat := bitsOf 256 e.crew

/-- Rule 11: the lowest channel outside the crew or named twice; 0 where the crew is empty (R70). -/
def crewFail (crew : ChanMask) (recs : List TsetRec) : Option Nat :=
  if crew = 0 then some 0
  else
    (List.range 256).find? fun c =>
      let n := (recs.filter fun r => r.ch.toNat = c).length
      2 ≤ n || (1 ≤ n && !crew.getLsbD c)

/-- The refusal detail word (R70). -/
def tsetDetail (c idx : Nat) (f : TsetFail) : Word32 :=
  placeN 32 0 c ||| placeN 32 8 f.rule ||| placeN 32 12 f.edge ||| placeN 32 16 f.partner ||| placeN 32 20 f.ui |||
  placeN 32 24 idx

/-- The spare holds a copy of channel c's timing sets: a handover is under way or the spare carries it (R224, R227). -/
def State.spareHolds (s : State) (c : Nat) : Bool :=
  let l := s.calLane (c / 16)
  (l.item.toNat = c % 16 && 1 ≤ l.phase.toNat && l.phase.toNat ≤ 4) || (l.carries.toNat = c % 16)

/-- Write one timing set of a channel, and of the spare that holds its copy, in one step (R71, R227). -/
def State.putTset (s : State) (c idx : Nat) (t : TSet) : State :=
  let s := s.setTset (256 * c + idx) t
  if s.spareHolds c then s.updCalLane (c / 16) fun l => { l with spTsets := SMap.put l.spTsets idx t } else s

/-- An accepted write is applied to every channel of the crew together (R69, R79). -/
def State.applyTset (s : State) (e idx : Nat) (mux : BitVec 2) (period : BitVec 40) (recs : List TsetRec) : State :=
  (s.eng e).chans.foldl (fun s c =>
    let t := tsetResult (s.tset (256 * c + idx)) c mux period recs
    s.putTset c idx { t with wseq := t.wseq + 1 }) s

/-- The waiting writes of an engine's crew. -/
def Engine.pends (r : Engine) : List PendTset :=
  match r.heat with
  | none => []
  | some h => h.pendTsets

/-- The timing sets as the accepted writes of engine e's crew will leave them (R71): a later write is judged against these. -/
def State.withPends (s : State) (e : Nat) : State :=
  (s.eng e).pends.foldl (fun s p => s.applyTset e p.tset p.mux p.period p.recs) s

/-- The lowest failing channel of a write and its failure (R69, R70). -/
def State.tsetRefusal (s : State) (e idx : Nat) (mux : BitVec 2) (period : BitVec 40) (recs : List TsetRec) :
    Option (Nat × TsetFail) :=
  let s := s.withPends e
  let crew := (s.eng e).crew
  match crewFail crew recs with
  | some c => some (c, { rule := 11 })
  | none =>
    firstSome (fun c => (s.tsetCheck c idx (tsetResult (s.tset (256 * c + idx)) c mux period recs)).map fun f => (c, f))
      (s.eng e).chans

/-- The writes among those that wait of which p holds take effect, in order, and complete (R71, R286). -/
def State.applyPendTsets (s : State) (e : Nat) (p : PendTset → Bool) : State :=
  let s := ((s.eng e).pends.filter p).foldl
    (fun s q => (s.applyTset e q.tset q.mux q.period q.recs).finish q.sq q.cid stOk) s
  s.updEng e fun r => { r with heat := r.heat.map fun h => { h with pendTsets := h.pendTsets.filter fun q => !p q } }

/-- A heat of the engine with a non-zero rating is admitted and not complete, and the write would give a period shorter
than its rated period (R150). -/
def State.tsetRated (s : State) (e : Nat) (period : BitVec 40) : Bool :=
  match (s.eng e).heat with
  | some h => h.rating ≠ 0 && period.toNat < h.pr
  | none => false

/-- TSET_WRITE (R69 to R71, R150, R277). While the engine is RUNNING the write waits for the crew's next granule
boundary. -/
def execTsetWrite (h : Hdr) (engine tset mux : Byte) (n : BitVec 16) (period : Word64) (recs : List TsetRec) (s : State) :
    Host.Outcome State Fault Refusal :=
  .next (queueCmd s h 0x10 [(128, engine.toNat), (136, tset.toNat), (144, mux.toNat), (160, n.toNat), (192, period.toNat)]
    (engine.toNat < 128 && mux.toNat < 4 && n.toNat ≤ 256 && n.toNat = recs.length && period.toNat < 2 ^ 40)
    (engineRec engine) false fun s =>
    let e := engine.toNat
    let m : BitVec 2 := fld mux 0 2
    let p : BitVec 40 := fld period 0 40
    let s := s.updCmd h.sq h.cid fun c => { c with engine := some e }
    if s.mode = .boot then s.done h stNotReady
    else
      match s.tsetRefusal e tset.toNat m p recs with
      | some (c, f) =>
        s.done h stBadCommand (tsetDetail c tset.toNat f) (if f.rule = 8 then BitVec.ofNat 64 f.other else 0)
      | none =>
        if s.tsetRated e p then s.done h stRefusedRating
        else if (s.eng e).st = .running then
          s.updEng e fun r => { r with heat := r.heat.map fun x =>
            { x with pendTsets := x.pendTsets ++ [⟨s.rnow, h.sq, h.cid, tset.toNat, m, p, recs⟩] } }
        else (s.applyTset e tset.toNat m p recs).done h stOk)

/-- The measured level of a window (R75). -/
def measuredLevel (count : Nat) : Nat := min 7 (count / 1024)

/-- The applied level moves one step toward the measured level (R76). -/
def stepLevel (a m : BitVec 3) : BitVec 3 := if a.toNat < m.toNat then a + 1 else if m.toNat < a.toNat then a - 1 else a

/-- Channel j of lane k, or the spare for j = 16, belongs to a RUNNING crew. -/
def State.inRunning (s : State) (k j : Nat) : Bool :=
  let c := if j = 16 then (s.calLane k).carries.toNat else j
  decide (c < 16) && s.engines.any fun e => e.2.crew.getLsbD (16 * k + c) && e.2.st = .running

/-- The lane has a channel whose crew's engine is RUNNING or HELD (R78). -/
def State.laneInHeat (s : State) (k : Nat) : Bool := (List.range 16).any fun j => s.inHeat (16 * k + j)

/-- LN_ACT_CTRL_WRITE (R78). -/
def execLnActCtrlWrite (lane : LaneId) (v : Word32) (s : State) : Host.Outcome State Fault Refusal :=
  .next (whenReady s fun s =>
    if s.laneInHeat lane.val then s else s.updLane lane.val fun l => { l with actEn := bit v 0 })

/-- LN_TSR_SEL_WRITE (R79). -/
def execLnTsrSelWrite (lane : LaneId) (v : Word32) (s : State) : Host.Outcome State Fault Refusal :=
  .next (whenReady s fun s =>
    let k := lane.val
    s.updLane k fun l => { l with
      tsrCh := fld v 0 4
      tsrTset := fld v 8 8
      tsrSnap := s.tset (256 * (16 * k + fldN v 0 4) + fldN v 8 8) })

/-- Entry `fine` of a tap table and its sequence (R79): 0 for CH 17 to 31. -/
def State.tapEntry (s : State) (k ch : Nat) (path : Bool) (fine : Nat) : BitVec 7 × BitVec 16 :=
  if 17 ≤ ch then (0, 0)
  else
    let t := s.tap (2 * (17 * k + ch) + path.toNat)
    (t.taps.getD fine 0, t.seq)

/-- LN_TAP_SEL_WRITE (R79). -/
def execLnTapSelWrite (lane : LaneId) (v : Word32) (s : State) : Host.Outcome State Fault Refusal :=
  .next (whenReady s fun s =>
    let k := lane.val
    let r := s.tapEntry k (fldN v 0 5) (bit v 8) (fldN v 16 6)
    s.updLane k fun l => { l with
      tapCh := fld v 0 5
      tapPath := bit v 8
      tapFine := fld v 16 6
      tapSnap := r.1
      tapSeq := r.2 })

end Sys2Proof.Machine
end

