-- ==== Sys2Proof/Machine/HeatOps.lean ====
section
/-! DEFINITION. What happens to a heat as a whole: played and real time (R53, R55, R92), holds (R105), capture writes put on
their way (R142), and the end of a heat by halt, fault, reset or abort (R101 to R103, R286). -/

namespace Sys2Proof.Machine

/-- Decision latency in ticks (R14, R18, R92). -/
def Engine.latency (e : Engine) : Nat := if e.coupled then 384 else 96

/-- The base that serves a played instant, given the instants and bases of its holds, newest first (R55). `from_` says that an
instant at which a hold fell is meant as the start of a cycle, which comes after the hold, and not as an instant that played
time reaches, which comes before it. -/
def baseAt (from_ : Bool) (p : Int) : List (Nat × Nat) → Nat
  | [] => 0
  | [(_, b)] => b
  | (t, b) :: r => if (t : Int) < p || (from_ && (t : Int) = p) then b else baseAt from_ p r

/-- The regatta time, in fu, at which played time reaches p. -/
def Heat.rtAt (h : Heat) (p : Int) : Int := baseAt false p h.bases + p

/-- The regatta time, in fu, of the start of a cycle at played time p (R55). -/
def Heat.startAt (h : Heat) (p : Nat) : Nat := baseAt true p h.bases + p

/-- The regatta tick in which played time reaches p. -/
def Heat.tickAt (h : Heat) (p : Int) : Nat := (h.rtAt p / 512).toNat

/-- The heat stands between two granules: no cycle of the next one has been played. -/
def Heat.atBoundary (h : Heat) : Bool :=
  match h.phase with
  | .waiting => false
  | .cycling => (match h.play with | some p => p.cyc = 0 | none => true)
  | _ => true

/-- The write was accepted no later than the granule boundary at which the heat stands (R71). -/
def Heat.tsetDue (h : Heat) (p : PendTset) : Bool := h.atBoundary && decide (p.at_ ≤ h.startAt h.next)

/-- The sampling instant of a decision at played instant d (R92). -/
def Engine.sample (e : Engine) (d : Nat) : Int := (d : Int) - e.latency * 512

/-- Update the heat of an engine. -/
def State.updHeat (s : State) (e : Nat) (f : Heat → Heat) : State := s.updEng e fun r => { r with heat := r.heat.map f }

/-- The members of a coupling known to this device, this one included (R279). -/
def State.couplingIds (s : State) (c : BitVec 7) : List Nat :=
  bitsOf 64 (setBit (SMap.get (fun _ => 0) s.ez.couplings c.toNat : Word64) s.ez.id.toNat true)

/-- The other members. -/
def State.peers (s : State) (e : Engine) : List Nat :=
  if e.coupled then (s.couplingIds e.coupling).filter fun i => i ≠ s.ez.id.toNat else []

/-- This device holds the lead member (R81). -/
def State.isLead (s : State) (e : Engine) : Bool := e.coupled && (s.peers e).all fun i => decide (s.ez.id.toNat < i)

/-- A CREW event of the engine's coupling (R263). -/
def State.sendCrew (s : State) (e : Engine) (op data tick : Nat) : State :=
  if e.coupled then
    s.sendOrdered 5 tick (place 30 0 e.coupling ||| placeN 30 7 op ||| placeN 30 10 data) id
  else s

/-- Played time at regatta tick t: 0 before cycle 0 (R105). -/
def Heat.playedAt (h : Heat) (t : Nat) : Nat :=
  match h.bases with
  | [] => 0
  | (_, b) :: _ => t * 512 - b

/-- Request a hold at regatta tick t, while held at the played time at which the crew stands: of several requests the earliest t
gives G, so that the members of a coupled crew, which hear of them in different orders, stop at the same G (R105). -/
def State.requestHoldAt (s : State) (e t : Nat) (cause : BitVec 3) : State :=
  let held := (s.eng e).st = .held
  s.updHeat e fun h =>
    let at_ := if held then min (h.playedAt t) h.next else h.playedAt t
    match h.hold with
    | some q => if at_ < q.at_ then { h with hold := some ⟨at_, cause⟩ } else h
    | none => { h with hold := some ⟨at_, cause⟩ }

/-- A hold requested now acts on the engine's heat: it is RUNNING, its resume tick has been chosen, or it is a coupled heat that awaits
its launch, whose cycle 0 will lie after the request (R105, R189). -/
def Engine.mayHold (r : Engine) : Bool :=
  r.st = .running || (r.st = .held && r.heat.any fun h => h.resumeAt.isSome) ||
  (r.coupled && r.heat.any fun h => h.launchAt.isNone && h.ended.isNone)

/-- Request a hold now. -/
def State.requestHold (s : State) (e : Nat) (cause : BitVec 3) : State := s.requestHoldAt e s.rtick cause

/-- The granule boundary at played time `next` meets a request made at played time t (R105): it is not the start of cycle
0, and L ticks have passed. -/
def boundaryMeets (lat t next cycle : Nat) : Bool := decide (0 < cycle) && decide (t + lat * 512 ≤ next)

/-- The heat stands at a granule boundary whose decision is complete, and its hold is due. -/
def Heat.holdDue (h : Heat) (lat : Nat) : Bool :=
  h.phase = .cycling && h.atBoundary &&
  (match h.hold with | some r => boundaryMeets lat r.at_ h.next h.cycle | none => false)

/-- The same for an ABORT (R105). -/
def Heat.abortDue (h : Heat) (lat : Nat) : Bool :=
  h.phase = .cycling && h.atBoundary &&
  (match h.abort with | some t => boundaryMeets lat t h.next h.cycle | none => false)

/-- A capture write leaves for the fail partition (R142). -/
def State.pushCapture (s : State) (e region : Nat) (d : CapData) : State :=
  let s := s.updHeat e fun h => if h.wrote.contains region then h else { h with wrote := region :: h.wrote }
  { s with fc := { s.fc with queue := s.fc.queue ++ [⟨e, region, (s.region region).gen, d⟩] } }

/-- The next multiple of 64. -/
def align64 (n : Nat) : Nat := ((n + 63) / 64) * 64

/-- The header of a RAW window (R159). -/
def State.rawHeader (s : State) (e : Nat) (w : RawWin) : BitVec 512 :=
  placeN 512 0 w.first ||| placeN 512 48 w.entry ||| placeN 512 64 w.granules ||| placeN 512 96 w.written |||
  placeN 512 128 (popCount (s.eng e).crew) ||| placeN 512 137 e ||| place 512 144 s.ez.id ||| place 512 160 (rtWord w.start)

/-- The RAW window in progress ends: its header is written into the slot kept for it (R158). -/
def State.endRaw (s : State) (e : Nat) : State :=
  match (s.eng e).heat with
  | none => s
  | some h =>
    match h.raw with
    | none => s
    | some w =>
      let s := if w.headerFits then
          s.pushCapture e w.region (.bytes w.base (bytesLE 64 (s.rawHeader e w).toNat)) else s
      s.updHeat e fun h => { h with raw := none }

/-- A pending HEAT_HOLD or HEAT_RESUME of the engine (R286). -/
def Cmd.holdOf (c : Cmd) (e : Nat) : Bool :=
  (c.opc = 0x02 || c.opc = 0x03) && c.engine = some e && c.stage = .started

/-- Mark commands that must be written in submission order (R286). -/
def State.orderCmds (s : State) (p : Cmd → Bool) (g : Nat) : State :=
  s.mapCmds fun c => if c.open && c.order = 0 && p c then { c with order := g } else c

/-- With no heat RUNNING or HELD the applied skew offset takes its target at once (R254). -/
def State.settleSkew (s : State) : State :=
  if s.anyEngine Engine.active then s else s.setSkew s.ez.target

/-- The engines of a waiting MODE_SET that are RUNNING still. -/
def ModeWait.prune (w : ModeWait) (s : State) : ModeWait := { w with engines := w.engines.filter fun e => (s.eng e).st = .running }

/-- A MODE_SET completes at the moment R337 gives: HOLD once the last of the engines that were RUNNING at its acceptance has left
that state, DOCK once the mode no longer reads HOLD. -/
def ModeWait.ready (w : ModeWait) (s : State) : Bool :=
  if w.mode = 4 then w.engines.isEmpty else if w.mode = 2 then s.mode ≠ .hold else false

/-- MODE_SETs that have come to their moment complete (R337). -/
def State.settleModes (s : State) : State :=
  let s := s.noteModes
  let l := s.dev.waits.map fun w => w.prune s
  let t := (l.filter fun w => w.ready s).foldl (fun t w => t.finish w.sq w.cid stOk) s
  State.settleSkew { t with dev := { t.dev with waits := l.filter fun w => !w.ready s } }

/-- The heat of an engine ends (R103): writes that wait take effect, the RAW window ends, and pending holds and resumes
complete. Its completion follows once its capture writes have landed (R142). -/
def State.endHeat (s : State) (e : Nat) (r : HeatEnd) (holds : Byte) : State :=
  match (s.eng e).heat with
  | none => s
  | some h =>
    if h.ended ≠ none then s
    else
      let s := s.applyPendTsets e fun _ => true
      let s := s.endRaw e
      let s := s.finishAll (fun c => c.holdOf e) holds
      let s := s.updEng e fun r => { r with peerFaultAt := none, peerDecAt := none }
      let s := s.updHeat e fun h => { h with
        phase := .ended
        ended := some r
        link := none
        hold := none
        abort := none
        resumeAt := none
        barAt := none
        barLocal := none
        barDone := none }
      s.settleModes

/-- Each HEAT_START in the launch queue completes ABORTED (R286). -/
def State.emptyLaunchQ (s : State) (e : Nat) : State :=
  let s := (s.eng e).launchQ.foldl (fun s r => s.finish r.sq r.cid stAborted) s
  s.updEng e fun r => { r with launchQ := [] }

/-- The command is the HEAT_START of the engine's heat, or waits in its launch queue. -/
def Engine.hasStart (r : Engine) (c : Cmd) : Bool :=
  (r.heat.any fun h => h.sq = c.sq && h.cid = c.cid) || r.launchQ.any fun q => q.sq = c.sq && q.cid = c.cid

/-- The commands of an engine that a fault or reset completes are written in submission order (R286). -/
def State.orderEngine (s : State) (e : Nat) : State :=
  s.orderCmds (fun c => c.engine = some e &&
    ((c.opc = 0x01 && (s.eng e).hasStart c) || c.opc = 0x02 || c.opc = 0x03 || c.opc = 0x10)) (e + 1)

/-- Detail word of an engine fault (R102). -/
def faultDetail (e code addr : Nat) : Word32 := placeN 32 0 e ||| placeN 32 8 code ||| placeN 32 16 addr

/-- ENGINE_FAULT (R101, R102, R286). SAFE_ENTRY sends no event to the Umpire, and its heat completes DEVICE_SAFE. -/
def State.engineFault (s : State) (e code addr : Nat) (tick : Nat) : State :=
  let old := s.eng e
  let s := s.orderEngine e
  let s := s.updEng e fun r => { r with
    st := .faulted
    faultCode := BitVec.ofNat 8 code
    faultAddr := BitVec.ofNat 12 addr
    epoch := r.epoch + 1
    pc := BitVec.ofNat 12 addr
    resumable := false
    holdCause := 0 }
  let s := s.endHeat e ⟨if code = 0x13 then stDeviceSafe else stEngineFault, 0, BitVec.ofNat 8 code, BitVec.ofNat 12 addr⟩
    stAborted
  let s := s.emptyLaunchQ e
  let s := if code = 0x13 then s else s.umpEvent 32 (faultDetail e code addr)
  if code = 0x12 || (old.heat.any fun h => h.annFault) then s else s.sendCrew old 5 code tick

/-- A heat that still awaits its coupled admission: no launch tick has been chosen (R104, R148). -/
def Heat.awaits (h : Heat) : Bool := h.launchAt.isNone && h.ended.isNone

/-- Release what a heat is charged (R149). -/
def State.discharge (s : State) (e : Nat) : State :=
  match (s.eng e).heat with
  | none => s
  | some h =>
    let s := h.charges.foldl (fun s c => s.updLane c.1 fun l => { l with vecLoad := l.vecLoad - c.2 }) s
    s.updHeat e fun h => { h with rating := 0, charges := [] }

/-- Withdraw a provisional admission: the charges and the windows go back, and no heat is left (R148). -/
def State.withdraw (s : State) (e : Nat) : State :=
  match (s.eng e).heat with
  | none => s
  | some h =>
    let s := s.discharge e
    let s := h.wins.foldl (fun s w => s.updRegion w.1 fun g => { g with win := w.2 }) s
    s.updEng e fun r => { r with heat := none, peerDecAt := none }

/-- The regatta ID of the lead member (R81). -/
def State.leadId (s : State) (r : Engine) : Nat := (s.peers r).foldl min s.ez.id.toNat

/-- A coupled admission that is under way on this member fails: the lead withdraws it everywhere and completes its command; a
member answers the lead with the refusal (R148). -/
def State.failAdmission (s : State) (e : Nat) (st : Byte) : State :=
  let r := s.eng e
  match r.heat with
  | none => s
  | some h =>
    if !h.awaits then s
    else if s.isLead r || !r.coupled then
      let s := s.sendAll (s.peers r) (.coupledWithdraw r.coupling)
      (s.withdraw e).finish h.sq h.cid st
    else (s.withdraw e).sendTo (s.leadId r) (.coupledAnswer r.coupling s.ez.id st 0)

/-- Per-engine reset (R103, R175, R286): a heat in progress completes ABORTED, EPOCH advances, the table is kept. -/
def State.engineReset (s : State) (e : Nat) : State :=
  let old := s.eng e
  let s := (s.orderEngine e).failAdmission e stAborted
  let s := s.updEng e fun r => { r with
    st := if r.st = .idle then .idle else if r.tableValid then .loaded else .idle
    epoch := r.epoch + 1
    resumable := false
    holdCause := 0 }
  let s := s.endHeat e ⟨stAborted, 0, 0, 0⟩ stAborted
  let s := (s.emptyLaunchQ e).timsOfReset e
  if old.active || old.heat.any Heat.awaits then s.sendCrew old 5 0 s.rtick else s

/-- The heat of an engine ends as an ABORT ends it: HALTED, ABORTED (R103, R105). -/
def State.abortHeat (s : State) (e : Nat) : State :=
  let s := s.updEng e fun r => { r with
    st := .halted
    resumable := false
    holdCause := 0 }
  s.endHeat e ⟨stAborted, 0, 0, 0⟩ stAborted

/-- The engine becomes HELD at played time `next` (R103, R105): writes that wait take effect, and pending HEAT_HOLDs complete
with the regatta time of G. -/
def State.holdEngine (s : State) (e : Nat) (cause : BitVec 3) (resumable : Bool) : State :=
  let g : Nat := match (s.eng e).heat with
    | some h => h.tickAt h.next
    | none => s.rtick
  let s := s.applyPendTsets e fun _ => true
  let s := s.updEng e fun r => { r with st := .held, resumable := resumable, holdCause := cause }
  let s := s.updHeat e fun h => { h with hold := none }
  let s := s.finishAll (fun c => c.opc = 0x02 && c.holdOf e) stOk 0 (rtWord g)
  s.settleModes

/-- An ABORT or an Umpire halt of a RUNNING heat: it stops at the boundary of a hold asked for at regatta tick t (R105). -/
def State.abortAt (s : State) (e t : Nat) : State :=
  s.updHeat e fun h => { h with abort := some (min (h.playedAt t) (h.abort.getD (h.playedAt t))) }

/-- The same now, on every member of a coupled crew: the others stop at the same boundary (R81, R105; log entry 111). -/
def State.requestAbort (s : State) (e : Nat) : State :=
  let r := s.eng e
  (s.abortAt e s.rtick).sendAll (s.peers r) (.coupledAbort r.coupling s.rtick)

/-- An Easy-All hold: at once, even inside a cycle, not resumable (R103, R105). A pending HEAT_HOLD completes, since the engine
is HELD (R277), and so do the writes that wait for a boundary (R71). -/
def State.easyHold (s : State) (e : Nat) : State :=
  let s := s.applyPendTsets e fun _ => true
  let s := s.updEng e fun r => { r with st := .held, resumable := false, holdCause := 5 }
  let s := s.updHeat e fun h => { h with hold := none }
  let s := s.finishAll (fun c => c.opc = 0x02 && c.holdOf e) stOk 0 (rtWord s.rtick)
  s.settleModes

/-- The engines in a state, rising. -/
def State.enginesIn (s : State) (p : Engine → Bool) : List Nat := (s.engines.filter fun e => p e.2).map (·.1)

/-- A device flag change is applied on tick t of the device (R100). -/
def State.pendDevFlag (s : State) (t f : Nat) (on : Bool) : State :=
  { s with flags := { s.flags with devPend := s.flags.devPend ++ [⟨t, f, on⟩] } }

/-- A regatta flag change is applied on regatta tick t (R100). -/
def State.pendRegFlag (s : State) (t f : Nat) (on : Bool) : State :=
  { s with flags := { s.flags with regPend := s.flags.regPend ++ [⟨t, f, on⟩] } }

/-- A regatta flag change of this device at regatta tick t (R100, R242). -/
def State.sendRegFlag (s : State) (t f : Nat) (on : Bool) : State :=
  s.sendOrdered 4 t (placeN 30 0 (f % 16) ||| placeB 30 4 on) fun s => s.pendRegFlag (t + orderedDelay) f on

end Sys2Proof.Machine
end

