-- ==== Sys2Proof/Machine/CalOps.lean ====
section
/-! DEFINITION. What calibration shares with the rest of the device (R218 to R232, R236): crew maps (R58, R279), rounds, the
abandonment of an item (R219), tables and temperature slots, and the end of an item. -/

namespace Sys2Proof.Machine

/-- Hot calibration may run (R219). -/
def State.hotOk (s : State) : Bool := (s.mode = .dock || s.mode = .run || s.mode = .hold) && !s.refSpan

/-- The lane has no free spare (R232). -/
def CalLane.noSpare (l : CalLane) : Bool := l.spState = 3 || l.retired

/-- The claim key of an item's spare or TIM unit (R223, R291). -/
def itemClaim (k i : Nat) : Nat := if i = 17 then 512 + 2 * k else if i = 18 then 512 + 2 * k + 1 else 256 + k

/-- The items of a round, in order (R218). On a lane whose spare is SPARED, the spare's item and that of the channel it
carries are not run hot (DEDUCED, log entry 38). -/
def CalLane.roundItems (l : CalLane) : List Nat :=
  ([16, 17, 18] ++ List.range 16).filter fun i => !(l.spState = 3 && (i = 16 || i = l.carries.toNat))

/-- A round starts (R220): T_cal is the present temperature. -/
def CalLane.startRound (l : CalLane) : CalLane :=
  { l with inRound := true, todo := l.roundItems, deferred := [], pending := false, last := l.now, interpTemp := l.now.toInt }

/-- A trigger reaches lane k: a round starts, or is held while one is in progress or hot calibration may not run (R219,
R220). -/
def State.calTrigger (s : State) (k : Nat) : State :=
  let ok := s.hotOk
  s.updCalLane k fun l => if l.inRound || !ok then { l with pending := true } else l.startRound

/-- CAL_ROUND_START on every lane at the first entry to DOCK (R220). -/
def State.calFirstDock (s : State) : State :=
  if s.cal.docked || s.dev.base ≠ .dock then s
  else (List.range 16).foldl State.calTrigger { s with cal := { s.cal with docked := true } }

/-- The lowest-numbered channel of a non-empty crew. -/
def Engine.lowest (r : Engine) : Nat := r.chans.headD 0

/-- The lowest joining channel and timing set whose copy would break R32 (R58). -/
def State.copyFail (s : State) (r : Engine) (mask : ChanMask) : Option (Nat × Nat) :=
  if r.crew = 0 then none
  else
    firstSome (fun c =>
      ((List.range 256).find? fun i => (s.tset (256 * r.lowest + i)).fasterThan (rateUi (s.chan c).active.rate)).map
        fun i => (c, i)) (bitsOf 256 (mask &&& ~~~r.crew))

/-- Copy all 256 timing sets of channel a into channel c; the count of applied writes stays that of c (R58, R79, R227). -/
def State.copyTsets (s : State) (a c : Nat) : State :=
  (List.range 256).foldl (fun s i =>
    let t := s.tset (256 * a + i)
    let u := s.tset (256 * c + i)
    if { t with wseq := u.wseq } = u then s else s.putTset c i { t with wseq := u.wseq }) s

/-- A member's engine holds a coupling number, or no longer does (R279). -/
def State.noteJoin (s : State) (c : BitVec 7) (id : BitVec 6) (joined : Bool) : State :=
  let m : Word64 := SMap.get (fun _ => 0) s.ez.couplings c.toNat
  { s with ez := { s.ez with couplings := SMap.put s.ez.couplings c.toNat (setBit m id.toNat joined) } }

/-- Every other member hears which coupling an engine of this device has joined or left (R279, R263; DESIGN CHOICE, log entry 148). -/
def State.tellJoin (s : State) (r : Engine) (joined : Bool) : State :=
  if r.coupled then s.sendAll s.otherIds (.coupledJoin r.coupling joined) else s

/-- The members hear of every coupling that an engine of this device holds. -/
def State.tellCouplings (s : State) : State := (s.enginesIn Engine.coupled).foldl (fun s e => s.tellJoin (s.eng e) true) s

/-- The engine takes its new crew and coupling (R58, R279). An empty mask dissolves the crew. -/
def State.setCrew (s : State) (e : Nat) (coupling : Byte) (mask : ChanMask) : State :=
  let r := s.eng e
  let s := if r.crew = 0 then s else (bitsOf 256 (mask &&& ~~~r.crew)).foldl (fun s c => s.copyTsets r.lowest c) s
  let s := s.updEng e fun r => { r with
    crew := mask
    coupled := bit coupling 7 && mask ≠ 0
    coupling := fld coupling 0 7 }
  if r.coupled = (s.eng e).coupled && (!r.coupled || r.coupling = (s.eng e).coupling) then s
  else (s.tellJoin r false).tellJoin (s.eng e) true

/-- The refusal of a crew map: status and DETAIL, in the order of R279. -/
def State.crewRefusal (s : State) (ctx e : Nat) (coupling : Byte) (mask : ChanMask) : Option (Byte × Word32) :=
  let r := s.eng e
  let others := s.engines.filter fun x => x.1 ≠ e
  if r.active then some (stNotReady, 0)
  else if others.any fun x => x.2.crew &&& mask ≠ 0 then some (stBadCommand, 0)
  else if bit coupling 7 && mask ≠ 0 && others.any fun x => x.2.coupled && x.2.coupling = (fld coupling 0 7 : BitVec 7) then
    some (stBadCommand, 0)
  else if (bitsOf 256 mask).any fun c => s.claim c ≠ 31 && s.claim c ≠ ctx then some (stClaimed, 0)
  else
    match s.copyFail r mask with
    | some (c, i) => some (stBadCommand, tsetDetail c i { rule := 4, edge := 7 })
    | none => none

/-- A joining channel is under in-place measurement (R232). -/
def State.mapBlocked (s : State) (e : Nat) (mask : ChanMask) : Bool :=
  (bitsOf 256 (mask &&& ~~~(s.eng e).crew)).any fun c =>
    let l := s.calLane (c / 16)
    l.phase = 5 && l.active.contains (c % 16)

/-- A crew map is judged and takes effect, or waits (R232, R279). -/
def State.crewMap (s : State) (w : MapWait) : State :=
  match s.crewRefusal (ctxOfQueue w.sq) w.engine w.coupling w.mask with
  | some (st, d) => s.finish w.sq w.cid st d
  | none =>
    if s.mapBlocked w.engine w.mask then { s with cal := { s.cal with mapWaits := s.cal.mapWaits ++ [w] } }
    else (s.setCrew w.engine w.coupling w.mask).finish w.sq w.cid stOk

/-- The crew maps that wait are judged again, in order. -/
def State.retryMaps (s : State) : State :=
  let l := s.cal.mapWaits
  l.foldl State.crewMap { s with cal := { s.cal with mapWaits := [] } }

/-- Temperature slot s at 20 + 10·s °C, in 1/16 °C (R221). -/
def slotNominal (n : Nat) : Int := 320 + 160 * (n : Int)

/-- The factory contents of a slot (R221): the nominal tables, Q 0 (DESIGN CHOICE, log entry 5). -/
def Slot.reset (item : Nat) : Slot :=
  if item < 17 then ⟨List.range 64, List.range 64, 0⟩
  else ⟨nominalBins.map (·.toNat), nominalBins.map (·.toNat), 0⟩

/-- A temperature slot of an item, and the temperature at which it was last written. -/
def State.slot (s : State) (k item n : Nat) : Slot := SMap.get (fun _ => Slot.reset item) s.cal.slots (9 * (19 * k + item) + n)
def State.slotTemp (s : State) (k n : Nat) : Int := SMap.get (fun _ => slotNominal n) s.cal.temps (9 * k + n)

/-- One value interpolated linearly between temperatures a and b, to nearest, ties away from zero (R222). -/
def interp (t a b x y : Int) : Int := roundDiv (x * (b - a) + (y - x) * (t - a)) (b - a).toNat

/-- The interpolated tables of two slots (R222). -/
def Slot.mix (t a b : Int) (x y : Slot) : Slot where
  t1 := List.zipWith (fun (p q : Nat) => (interp t a b p q).toNat) x.t1 y.t1
  t2 := List.zipWith (fun (p q : Nat) => (interp t a b p q).toNat) x.t2 y.t2
  q := interp t a b x.q y.q

/-- The lower of the two slots that bracket T, from 20 up to 100 °C. -/
def bracket (t : Int) : Nat := min 7 ((t - 320) / 160).toNat

/-- The table formed for an item at temperature t (R222): between the two recorded temperatures, whichever is the higher, the
interpolated one; outside them the nearer slot, at a tie the lower. -/
def State.interpolated (s : State) (k item : Nat) (t : Int) : Slot :=
  if t < slotNominal 0 then s.slot k item 0
  else if slotNominal 8 < t then s.slot k item 8
  else
    let n := bracket t
    let a := s.slotTemp k n
    let b := s.slotTemp k (n + 1)
    if a < t && t < b then Slot.mix t a b (s.slot k item n) (s.slot k item (n + 1))
    else if b < t && t < a then Slot.mix t b a (s.slot k item (n + 1)) (s.slot k item n)
    else if (t - a).natAbs ≤ (t - b).natAbs then s.slot k item n
    else s.slot k item (n + 1)

/-- Install a tap table on one path of channel j or the spare (R73, R79). -/
def State.putTaps (s : State) (k j : Nat) (path : Bool) (l : List Nat) : State :=
  s.updTap (2 * (17 * k + j) + path.toNat) fun t => { taps := l.map (BitVec.ofNat 7), seq := t.seq + 1 }

/-- Install both tables of an item whole (R73, R180). -/
def State.installItem (s : State) (k item : Nat) (a b : List Nat) : State :=
  if item < 17 then (s.putTaps k item false a).putTaps k item true b
  else s.updTim (2 * k + (item - 17)) fun t => { t with
    binS := a.map (BitVec.ofNat 16)
    binP := b.map (BitVec.ofNat 16)
    tblSeq := t.tblSeq + 1 }

/-- The slot nearest to a temperature, ties to the lower (R221). -/
def nearestSlot (t : Int) : Nat :=
  (List.range 9).foldl (fun m n => if (t - slotNominal n).natAbs < (t - slotNominal m).natAbs then n else m) 0

/-- A passing hot calibration is written into the slot nearest to T_cal, keeping Q (R221). -/
def State.writeSlot (s : State) (k item : Nat) (a b : List Nat) : State :=
  let l := s.calLane k
  let n := nearestSlot l.last.toInt
  let s := { s with cal := { s.cal with
    slots := SMap.put s.cal.slots (9 * (19 * k + item) + n) { s.slot k item n with t1 := a, t2 := b }
    temps := SMap.put s.cal.temps (9 * k + n) l.now.toInt
    unsaved := true } }
  s.updCalLane k fun l => { l with
    hot := setBit l.hot n true
    lastHot := if item < 16 then SMap.put l.lastHot item l.now.toInt else l.lastHot }

/-- Results of an item (R209, R229). -/
def resPass : Nat := 0
def resFail : Nat := 1
def resSpared : Nat := 2
def resLaneFault : Nat := 3

/-- The CAL packet (R209, R229). -/
def State.calPacket (s : State) (k item res : Nat) : State :=
  s.logSend 4 k ([placeN 32 0 k ||| placeN 32 4 item ||| placeN 32 9 res, BitVec.ofInt 32 (s.calLane k).now.toInt] ++
    words64 (rtWord s.rtick))

/-- An item's result is recorded and sent (R229). -/
def State.calResult (s : State) (k item res : Nat) : State :=
  (s.updCalLane k fun l => { l with results := SMap.put l.results item (BitVec.ofNat 2 res) }).calPacket k item res

/-- The item and phase a lane shows while it has items in place. -/
def CalLane.showPlace (l : CalLane) : CalLane :=
  { l with item := BitVec.ofNat 5 (l.active.headD 31), phase := if l.active.isEmpty then 0 else 5 }

/-- The spare is free again and its routing is the channel's (R224 step 7). -/
def CalLane.freeSpare (l : CalLane) : CalLane :=
  { l with
    carries := 31
    spState := 0
    driveSw := false
    strobeSw := false
    shadowFrom := none
    shadowEnd := none
    newTaps := none
    kept := []
    spTsets := [] }

/-- An item no longer runs: what calibration claimed for it is released (R223). A SPARED spare stays claimed by calibration
(DEDUCED, log entry 38). -/
def State.leaveItem (s : State) (k i : Nat) : State :=
  let kept := i < 17 && (s.calLane k).spState = 3
  let s := if s.claim (itemClaim k i) = 16 && !kept then s.setClaim (itemClaim k i) 31 else s
  s.updCalLane k fun l => ({ l with active := l.active.filter fun j => j ≠ i }).showPlace

/-- A lane whose requested round has ended, or has only deferred items left, ends for each CAL_REQUEST that named it (R236;
log entry 39). -/
def CalReq.endLane (r : CalReq) (k : Nat) (deferred fault : Bool) : CalReq :=
  if bit r.left k && !bit r.wait k then
    { r with
      left := setBit r.left k false
      defer := setBit r.defer k deferred
      fault := setBit r.fault k fault }
  else r

/-- CAL_REQUESTs with no lane left complete. -/
def State.settleReqs (s : State) : State :=
  let s := (s.cal.reqs.filter fun r => r.left = 0).foldl
    (fun s r => s.finish r.sq r.cid stOk (place 32 0 r.defer ||| place 32 16 r.fault)) s
  { s with cal := { s.cal with reqs := s.cal.reqs.filter fun r => r.left ≠ 0 } }

/-- The round of lane k ends when every item has passed, failed or been spared; a held trigger then starts the next (R220,
R223). -/
def State.checkRound (s : State) (k : Nat) : State :=
  let l := s.calLane k
  if !l.inRound || !l.todo.isEmpty || !l.active.isEmpty then s
  else
    let s := { s with cal := { s.cal with reqs := s.cal.reqs.map fun (r : CalReq) => r.endLane k (!l.deferred.isEmpty) l.laneFault } }
    let s := s.settleReqs
    if !l.deferred.isEmpty then s
    else
      let ok := s.hotOk
      let s := { s with cal := { s.cal with reqs := s.cal.reqs.map fun (r : CalReq) => { r with wait := setBit r.wait k false } } }
      s.updCalLane k fun l =>
        let l := { l with inRound := false, rounds := satInc l.rounds }
        if l.pending && ok then l.startRound else l

/-- A round is requested on lane k for request r: it starts at once, or after the current one (R236). -/
def State.requestRound (s : State) (r : CalReq) (k : Nat) : CalReq :=
  { r with left := setBit r.left k true, wait := setBit r.wait k (s.calLane k).inRound }

/-- The tap tables that an unfinished return has replaced stand again (R219; log entry 126). -/
def State.restoreTaps (s : State) (k j : Nat) : State :=
  let s := (s.calLane k).kept.foldl (fun s e => s.updTap (2 * (17 * k + j) + e.1.toNat) fun _ => e.2) s
  s.updCalLane k fun l => { l with kept := [] }

/-- An item in progress is abandoned (R219): no table changes and the round resumes at it. A channel whose traffic the spare
carries gets it back by the return steps, or at once in SAFE. -/
def State.abandonItem (s : State) (safe : Bool) (k i : Nat) : State :=
  let l := s.calLane k
  let carried := i < 16 && l.phase ≠ 5 && (l.driveSw || l.strobeSw)
  let s := if i < 16 then s.restoreTaps k i else s
  if carried && !safe then
    s.updCalLane k fun l => { l with
      phase := 4
      newTaps := none
      shadowFrom := if l.phase = 4 then l.shadowFrom else none
      shadowEnd := if l.phase = 4 then l.shadowEnd else none }
  else
    let s := s.leaveItem k i
    s.updCalLane k fun l =>
      let l := if i < 16 && l.spState ≠ 3 then l.freeSpare else l
      if l.svTodo.isSome then { l with svTodo := some [] } else { l with todo := i :: l.todo }

/-- The round of step 7 is in progress on lane k, or is over (R234, R237). -/
def CalLane.surveyOver (l : CalLane) : Bool := l.svTodo = some [] && l.active.isEmpty
def CalLane.surveyIn (l : CalLane) : Bool := l.svBegan && !l.surveyOver

/-- A round of a Survey run that has ended by its last item counts in ROUNDS (R237). `old` is the lane before it. -/
def CalLane.countSurvey (l old : CalLane) : CalLane :=
  if l.surveyOver && old.surveyIn then { l with rounds := satInc l.rounds } else l

/-- Hot calibration may no longer run: every item in progress is abandoned (R219), and a crew map that waited for one in place is
judged again (R232). -/
def State.calAbandon (s : State) (safe : Bool) : State :=
  State.retryMaps <| (List.range 16).foldl (fun s k =>
    let s := (s.calLane k).active.reverse.foldl (fun s i => s.abandonItem safe k i) s
    s.updCalLane k fun l => { l with svTodo := if safe then none else l.svTodo.map fun _ => [] }) s

end Sys2Proof.Machine
end

