-- ==== Sys2Proof/Machine/Safe.lean ====
section
/-! DEFINITION. SAFE entry (R50, R103, R335) and Easy-All (R261, R262). -/

namespace Sys2Proof.Machine

/-- CAL_SURVEY (R237). -/
def State.calSurvey (s : State) : Word32 :=
  place 32 0 s.cal.laneFail ||| placeB 32 16 s.cal.vrefBad ||| placeB 32 17 s.cal.surveyDone ||| place 32 24 s.cal.surveySeq

/-- One channel at SAFE entry (R50): driver, termination, clamps, PMU and self-check off, levels kept. -/
def Chan.toSafe (c : Chan) : Chan :=
  { c with
    drive := .off
    active := { c.active with path := 0, cfg := setBit c.active.cfg 4 false }
    safeOff := true
    compliance := false
    curLimit := false }

/-- Every channel at SAFE entry; the comparators go on judging (R50, R193). -/
def State.chansSafe (s : State) : State :=
  (List.range 256).foldl (fun s c => s.changeChan c (s.now * 512) Chan.toSafe) s

/-- A Survey run ended by SAFE applies no correction; its MODE_SET completes DEVICE_SAFE with CAL_SURVEY (R337). A MODE_SET
HOLD that waits completes DEVICE_SAFE too. -/
def State.safeModes (s : State) : State :=
  let hit (w : ModeWait) : Bool := w.mode = 4 || w.mode = 5
  let d := s.calSurvey
  let s := (s.dev.waits.filter hit).foldl
    (fun s w => s.finish w.sq w.cid stDeviceSafe (if w.mode = 5 then d else 0)) s
  { s with dev := { s.dev with waits := s.dev.waits.filter fun w => !hit w }, cal := { s.cal with surveyBusy := false } }

/-- SAFE_ENTRY (R50, R103, R335): in BOOT the cause is held; in Stop and in SAFE it finds nothing to do. -/
def State.enterSafe (s : State) : State :=
  match s.dev.base with
  | .stop | .safe => s
  | .boot => { s with dev := { s.dev with safePend := true } }
  | _ =>
    let s := s.safeModes
    let s := { s with dev := { s.dev with base := .safe } }
    let s := (s.enginesIn fun r => r.heat.any Heat.awaits).foldl (fun s e => s.failAdmission e stDeviceSafe) s
    let s := (s.enginesIn Engine.active).foldl (fun s e => s.engineFault e 0x13 (s.eng e).pc.toNat s.rtick) s
    (s.chansSafe.calAbandon true).settleModes

/-- The part of EZ_EA_STATUS that the first raise latches, and a later upgrade to SAFE (R261). -/
def EaSt.raise (a : EaSt) (safe : Bool) (kind id num time : Nat) : EaSt :=
  if a.latched then { a with safe := a.safe || safe }
  else { a with
    latched := true
    safe := safe
    kind := BitVec.ofNat 3 kind
    id := BitVec.ofNat 6 id
    num := BitVec.ofNat 7 num
    time := time }

/-- Easy-All reaches this member with the action carried (R261): the stricter of it and EZ_EA_CFG.ACTION. -/
def State.easyAll (s : State) (carried : Bool) (kind id num time : Nat) : State :=
  let safe := carried || bit s.ea.cfg 0
  let s := { s with ea := s.ea.raise safe kind id num time }
  if safe then s.enterSafe
  else ((s.enginesIn fun e => e.st = .running).foldl (fun s e => s.easyHold e) s).settleModes

/-- Payload of an EASYALL event (R242). -/
def eaPayload (safe : Bool) (kind num : Nat) : BitVec 30 :=
  placeB 30 0 safe ||| placeN 30 1 (kind % 8) ||| placeN 30 4 (num % 128)

/-- This device raises Easy-All: it applies it at once and floods an EASYALL event (R261). -/
def State.raiseEasyAll (s : State) (kind num : Nat) : State :=
  let t := s.rtick
  let s := s.flood none 0 t (eaPayload (bit s.ea.cfg 0) kind num)
  s.easyAll (bit s.ea.cfg 0) kind s.ez.id.toNat num t

/-- Easy-All leaves the latched state on this member (R262); EASYALL_N is ignored for 1 us. -/
def State.clearEasyAll (s : State) : State :=
  State.settleModes { s with ea := { s.ea with latched := false, safe := false, ignoreTo := some (s.now + usTicks) } }

end Sys2Proof.Machine
end

