-- ==== Sys2Proof/Machine/Link.lean ====
section
/-! DEFINITION. Links (R82 to R102): conditions, the effect of each entry on the link in resolution, the faults of an entry,
and what a resolved link does at its decision point. -/

namespace Sys2Proof.Machine

/-- Some compare failed in the fail window (C, S] (R92). -/
def failIn (fails : List Nat) (c : Option Nat) (smp : Int) : Bool :=
  fails.any fun f => (match c with | none => true | some k => decide (k < f)) && decide ((f : Int) ≤ smp)

/-- An out-of-window event by S, since the last CAPT (R160). -/
def oowBy (l : List Nat) (smp : Int) : Bool := l.any fun t => decide ((t : Int) ≤ smp)

/-- The n-th summary of member i for the S in regatta tick t, in the order received (R263; log entry 28). -/
def Heat.summary (h : Heat) (i t n : Nat) : Option Summary := (h.summaries.reverse.filter fun m => m.src = i && m.s = t)[n]?

/-- The OR over the other members of one bit of their n-th summaries at S; none where one is missing (R93, R263). A sampling
instant before cycle 0 has no compares, and no summary. -/
def State.peerOr (s : State) (r : Engine) (h : Heat) (smp : Int) (n : Nat) (f : Summary → Bool) : Option Bool :=
  if smp < 0 then some false
  else
    (s.peers r).foldl (fun a i =>
      match a, h.summary i (h.tickAt smp) n with
      | some a, some m => some (a || f m)
      | _, _ => none) (some false)

/-- Every other member's summary at S has come (R263). -/
def State.hasSummaries (s : State) (r : Engine) (h : Heat) (smp : Int) : Bool := (s.peerOr r h smp 0 fun _ => false).isSome

/-- A value of the lead member: its own there, and elsewhere what LEAD_COND carried, the k-th read at S taking the k-th that
came for it; none where it is missing (R93, R263). `leadConds` holds them newest first. -/
def State.leadValue (s : State) (r : Engine) (h : Heat) (smp : Int) (k : Nat) (own : Bool) : Option Bool :=
  if !r.coupled || s.isLead r then some own
  else ((h.leadConds.reverse.filter fun c => c.1 = h.tickAt smp)[k]?).map (·.2)

/-- The lead member sends the next value of an EXT, device flag or APGF condition at the S in regatta tick t, unless it has gone
out ahead of the decision point (R263). `k` is its place among those of this S. -/
def State.sendLeadAt (s : State) (e t k : Nat) (v : Bool) : State :=
  let r := s.eng e
  match r.heat with
  | none => s
  | some h =>
    if r.coupled && s.isLead r && decide ((if h.leadAt = t then h.leadSent else 0) ≤ k) then
      (s.sendCrew r 1 v.toNat t).updHeat e fun h => { h with leadAt := t, leadSent := k + 1 }
    else s

/-- The same for the S at a played instant. -/
def State.sendLead (s : State) (e : Nat) (smp : Int) (k : Nat) (v : Bool) : State :=
  match (s.eng e).heat with
  | none => s
  | some h => s.sendLeadAt e (h.tickAt smp) k v

/-- The condition is one that takes the lead member's value (R93). -/
def condLead (x : Entry) : Bool :=
  eCond x = 7 || eCond x = 10 || ((eCond x = 5 || eCond x = 6) && 32 ≤ eCtr x && eCtr x < 96)

/-- Levels of GATE0 to GATE3 and TRIG_IN at regatta time t in fu (R88). -/
def State.extAt (s : State) (i : Nat) (t : Int) : Bool := bit (histAt (0 : BitVec 5) (t / 512) s.pins.hist) i

/-- Flag f, 32 to 111, as applied by regatta time t in fu (R100). -/
def State.lateFlagAt (s : State) (f : Nat) (t : Int) : Bool :=
  if f < 96 then bit (histAt (0 : Word64) (t / 512) s.flags.devHist) (f - 32)
  else bit (histAt (0 : BitVec 16) (t / 512) s.flags.regHist) (f - 96)

/-- TRIG of group g at regatta time t in fu (R88, R196). -/
def State.trigAt (s : State) (g : Nat) (t : Int) : Bool := histAt false (t / 512) (s.group g).trigHist

/-- Counter c of a link (R80). -/
def EngRegs.ctr (r : EngRegs) (c : Nat) : Counter := SMap.get (fun _ => Counter.reset) r.ctrs c

/-- Update counter c. -/
def EngRegs.updCtr (r : EngRegs) (c : Nat) (f : Counter → Counter) : EngRegs :=
  { r with ctrs := SMap.put r.ctrs c (f (r.ctr c)) }

/-- Decrement, saturating at 0 (R86, R89). -/
def Counter.dec (c : Counter) : Counter := { c with value := if c.value = 0 then 0 else c.value - 1 }

/-- The fail window (C, S] is empty: a MATCH or WAIT on FAIL or PASS has consumed it at this decision point (R92, R97). -/
def emptyWindow (cons : Option Nat) (smp : Int) : Bool :=
  match cons with
  | some c => decide (smp ≤ c)
  | none => false

/-- FAIL over the compares of every member in the fail window (R92, R93). -/
def State.crewFail (s : State) (r : Engine) (h : Heat) (cons : Option Nat) (smp : Int) : Option Bool :=
  (s.peerOr r h smp 0 (·.fail)).map fun o => !emptyWindow cons smp && (failIn h.fails cons smp || o)

/-- The value of an entry's condition before INV, at sampling instant S (R88, R90, R92, R93); `k` lead values have been read at
S. None: the member of the coupled crew lacks the lead's value, or, for a late condition, which alone has an S, a summary (R92,
R263). -/
def State.condRaw (s : State) (r : Engine) (h : Heat) (w : EngRegs) (cons : Option Nat) (smp : Int) (k : Nat) (x : Entry) :
    Option Bool :=
  let real := h.rtAt smp
  let fail := s.crewFail r h cons smp
  if condLate x && !s.hasSummaries r h smp then none else
  match eCond x with
  | 0 => some true
  | 1 => fail
  | 2 => fail.map not
  | 3 => some w.matched
  | 4 => some (decide ((w.ctr (eCtr x)).value = 0))
  | 5 =>
    if eCtr x < 32 then some (bit w.eflags (eCtr x))
    else if eCtr x < 96 then s.leadValue r h smp k (s.lateFlagAt (eCtr x) real) else some (s.lateFlagAt (eCtr x) real)
  | 6 =>
    if eCtr x < 32 then some (!bit w.eflags (eCtr x))
    else if eCtr x < 96 then s.leadValue r h smp k (!s.lateFlagAt (eCtr x) real) else some (!s.lateFlagAt (eCtr x) real)
  | 7 => s.leadValue r h smp k (s.extAt (eCtr x) real)
  | 8 => (s.peerOr r h smp 0 (·.fcsat)).map (oowBy h.oowAt smp || ·)
  | 9 => some (s.trigAt (eCtr x) real)
  | 10 => s.leadValue r h smp k (bit w.apg.flags (eCtr x))
  | _ => some false

/-- INV (R89). -/
def condInv (x : Entry) (b : Bool) : Bool := b ^^ bit x 104

/-- An outward effect joins the link. -/
def LinkWork.addFx (w : LinkWork) (x : LinkFx) : LinkWork := { w with fx := w.fx ++ [x] }

/-- What reading a condition does to the link: C on FAIL and PASS without KEEP, the value a lead sends, and FCSAT as last
evaluated (R89, R92, R93, R107). -/
def LinkWork.readCond (w : LinkWork) (lead : Bool) (smp : Int) (x : Entry) (v : Bool) : LinkWork :=
  let w := if condLate x then { w with late := true } else w
  let w := if (eCond x = 1 || eCond x = 2) && !bit x 106 && decide (0 ≤ smp) then { w with cons := some smp.toNat } else w
  let w := if lead && condLead x then w.addFx (.leadCond w.leads v) else w
  let w := if condLead x then { w with leads := w.leads + 1 } else w
  if eCond x = 8 then w.addFx (.fcsat v) else w

/-- DEC: the counter is decremented before it is tested (R89). -/
def LinkWork.decFirst (w : LinkWork) (x : Entry) : LinkWork :=
  if eCond x = 4 && bit x 105 then { w with regs := w.regs.updCtr (eCtr x) Counter.dec } else w

/-- The region bound at SEG.bind, where it is a current VECTOR region (R115). -/
def State.segRegion (s : State) (r : Engine) (b : Nat) : Option Nat :=
  let hd : Word32 := SMap.get (fun _ => 0) r.bind b
  if hd ≠ 0 && s.liveRegion hd && (s.region (handleIdx hd)).kind = .vector then some (handleIdx hd) else none

/-- Code 0x0D (R101, R115): the segment does not lie inside a bound VECTOR region, whose size is its G. -/
def State.segBad (s : State) (r : Engine) (x : Entry) : Bool :=
  match s.segRegion r (eBind x) with
  | none => true
  | some i => decide ((s.region i).size < eBase x + eLen x)

/-- The entry has a segment in a region. -/
def Opc.hasSeg (o : Opc) : Bool := o = .play || o = .playn || o = .matchE

/-- The declaration entries of a heat, in order (R144). -/
def declEntries (d : Decl) : List Word64 := [d.d0, d.d1, d.d2, d.d3]
def declBind (e : Word64) : Nat := fldN e 0 4
def declMode (e : Word64) : Nat := fldN e 4 2
def declDrain (e : Word64) : Bool := bit e 6
def declWbase (e : Word64) : Word32 := fld e 16 32

/-- The declaration includes this mode and binding (R144). -/
def declIncludes (d : Decl) (mode bind : Nat) : Bool := (declEntries d).any fun e => declMode e = mode && declBind e = bind

/-- The group's copy names this engine as arm master, and has it as a member (R195, R200). -/
def State.armRole (s : State) (e g : Nat) : Bool := (s.group g).masteredBy false s.ez.id.toNat e
def State.fireRole (s : State) (e g : Nat) : Bool := bit (s.group g).eng e

/-- A granule of the fetched copy was met with an uncorrectable error (R101). -/
def Heat.fetchBad (h : Heat) (region gran : Nat) : Bool :=
  h.fetched.any fun f => f.bad && f.region = region && f.gran = gran

/-- Code 0x10 at the start of a segment: its first granule could not be read (R101). -/
def State.firstBad (s : State) (r : Engine) (h : Heat) (x : Entry) : Bool :=
  match s.segRegion r (eBind x) with
  | none => false
  | some i => h.fetchBad i (eBase x)

/-- The fault codes that apply to an entry of a link, other than those of its condition (R84, R101). `count` counts the
link entries up to this one. -/
def State.entryFaults (s : State) (e : Nat) (r : Engine) (h : Heat) (w : LinkWork) (x : Entry) : List Nat :=
  match Opc.of (eOpc x) with
  | none => [0x01]
  | some o =>
    let link := o.playKind.isNone
    [(!condPermitted o x, 0x02), (!flgOk o x, 0x03), (!fieldsOk o x, 0x04), (!tgtOk o x, 0x05),
     (o = .call && 16 ≤ w.regs.stack.length, 0x07), (o = .ret && w.regs.stack.isEmpty, 0x08),
     (o = .endl && decide (eCtr x < 8) && !(w.regs.ctr (eCtr x)).active, 0x09),
     (link && decide (16 ≤ w.count), 0x0A), (link && condLate x && w.late, 0x0B), (!shortOk o x, 0x0C),
     (o.hasSeg && s.segBad r x, 0x0D),
     (o = .capt && decide (1 ≤ eCtr x) && decide (eCtr x ≤ 3) && !declIncludes h.decl (eCtr x) (eBind x), 0x0E),
     ((o = .arm && decide (eCtr x < 16) && !s.armRole e (eCtr x)) ||
      (o = .fire && decide (eCtr x < 16) && !s.fireRole e (eCtr x)), 0x0F),
     (o.hasSeg && s.firstBad r h x, 0x10)].filterMap fun p => if p.1 then some p.2 else none

/-- What one entry does to a link: go on, begin a PLAY-class entry, halt with a tag, or fault. -/
inductive LinkOut where
  | go (w : LinkWork)
  | play (w : LinkWork) (kind : PlayKind) (addr : Nat) (x : Entry)
  | halt (w : LinkWork) (addr : Nat) (tag : Word32)
  | fault (w : LinkWork) (code addr : Nat)
deriving DecidableEq, Repr

/-- An entry at `addr` has been executed: the highest address executed since each active LOOP (R106). -/
def EngRegs.note (r : EngRegs) (addr : Nat) : EngRegs :=
  { r with ctrs := r.ctrs.map fun c => (c.1, if c.2.active then { c.2 with top := max c.2.top addr } else c.2) }

/-- APGLD (R86). -/
def Apg.load (a : Apg) (c : Nat) (imm : Word32) : Apg :=
  match c with
  | 0 => { a with x := fld imm 0 24 }
  | 1 => { a with y := fld imm 0 24 }
  | 2 => { a with z := fld imm 0 8 }
  | 3 => { a with d0 := imm }
  | 4 => { a with d1 := imm }
  | n => { a with ix := a.ix.set (n - 8) (fld imm 0 24) }

/-- The link goes on at an address. -/
def LinkWork.at_ (w : LinkWork) (pc : Nat) : LinkWork := { w with pc := pc }

/-- SETF and CLRF (R100). -/
def LinkWork.setFlag (w : LinkWork) (f : Nat) (on : Bool) : LinkWork :=
  if f < 32 then { w with regs := { w.regs with eflags := setBit w.regs.eflags f on } }
  else if f < 96 then w.addFx (.devFlag (f - 32) on)
  else w.addFx (.regFlag (f - 96) on)

/-- The effect of a legal entry at `addr` whose condition is t (R86). -/
def LinkWork.act (w : LinkWork) (o : Opc) (addr : Nat) (x : Entry) (t : Bool) : LinkOut :=
  let n := addr + 1
  match o with
  | .nop => .go (w.at_ n)
  | .halt => if t then .halt w addr (eImm x) else .go (w.at_ n)
  | .jmp => .go (w.at_ (eTgt x))
  | .jif => .go (w.at_ (if t then eTgt x else n))
  | .call => .go ({ w with regs := { w.regs with stack := n :: w.regs.stack } }.at_ (eTgt x))
  | .ret => .go ({ w with regs := { w.regs with stack := w.regs.stack.tail } }.at_ (w.regs.stack.headD 0))
  | .loop => .go ({ w with regs := w.regs.updCtr (eCtr x) fun _ => ⟨eImm x, true, n, addr, addr⟩ }.at_ n)
  | .endl =>
    let c := (w.regs.ctr (eCtr x)).dec
    if c.value = 0 then .go ({ w with regs := w.regs.updCtr (eCtr x) fun _ => { c with active := false } }.at_ n)
    else .go ({ w with regs := w.regs.updCtr (eCtr x) fun _ => c }.at_ c.body)
  | .ldc => .go ({ w with regs := w.regs.updCtr (eCtr x) fun c => { c with value := eImm x } }.at_ n)
  | .apgld => .go ({ w with regs := { w.regs with apg := w.regs.apg.load (eCtr x) (eImm x) } }.at_ n)
  | .sym => .go ({ w with regs := { w.regs with symBank := BitVec.ofNat 2 (eCtr x) } }.at_ n)
  | .setf => .go ((w.setFlag (eCtr x) true).at_ n)
  | .clrf => .go ((w.setFlag (eCtr x) false).at_ n)
  | .arm => .go ((w.addFx (.arm (eCtr x))).at_ n)
  | .fire => .go ((w.addFx (.fire (eCtr x))).at_ n)
  | .capt => .go ((w.addFx (.capt addr (eCtr x) (eImm x) (eBind x))).at_ n)
  | .mark => .go ((w.addFx (.mark addr (eImm x))).at_ n)
  | .play => .play w .play addr x
  | .playn => .play w .playn addr x
  | .idle => .play w .idle addr x
  | .matchE => .play w .matchK addr x
  | .wait => .play w .wait addr x
  | .bar => .play w .bar addr x
  | .apgrun => .play w .apgrun addr x

/-- Execute entry x as the next of the link (R86, R101): the lowest fault code that applies is recorded. A condition is read
for HALT and JIF alone. Of an entry that cannot be read nothing but its address is judged (log entry 112). -/
def State.linkStep (s : State) (e : Nat) (smp : Int) (w : LinkWork) (x : Entry) : LinkOut :=
  let r := s.eng e
  let addr := w.pc
  match r.heat with
  | none => .go w
  | some h =>
    if 4096 ≤ addr then .fault w 0x06 0xFFF
    else if r.ecc.contains addr then .fault w 0x11 addr
    else
      match s.entryFaults e r h w x, Opc.of (eOpc x) with
      | c :: cs, _ => .fault w (cs.foldl min c) addr
      | [], none => .fault w 0x01 addr
      | [], some o =>
        let w := { w with
          count := if o.playKind.isNone then w.count + 1 else w.count
          seen := addr :: w.seen
          regs := w.regs.note addr }
        if o = .halt || o = .jif then
          let w := w.decFirst x
          match s.condRaw r h w.regs w.cons smp w.leads x with
          | none => .fault w 0x12 addr
          | some v => (w.readCond (r.coupled && s.isLead r) smp x v).act o addr x (condInv x v)
        else w.act o addr x true

/-- Resolve a link from the table (R83). A link of more than 16 entries has faulted by then. -/
def State.runLink (s : State) (e : Nat) (smp : Int) : Nat → LinkWork → LinkOut
  | 0, w => .fault w 0x0A w.pc
  | n + 1, w =>
    match s.linkStep e smp w ((s.eng e).entryAt w.pc) with
    | .go w => s.runLink e smp n w
    | o => o

/-- A link that begins at an address (R83). -/
def linkFrom (r : EngRegs) (cons : Option Nat) (pc : Nat) : LinkWork where
  pc := pc
  count := 0
  late := false
  regs := r
  cons := cons
  fx := []
  seen := []
  leads := 0

/-- The regatta time, in fu, of a played instant of the engine's heat. -/
def State.rtOf (s : State) (e d : Nat) : Nat :=
  match (s.eng e).heat with
  | some h => (h.rtAt d).toNat
  | none => s.rnow

/-- A device flag change made at time t, in fu, applies on the first tick boundary at or after t + 16 ticks (R100). -/
def devFlagTick (t : Nat) : Nat := ceilDiv t 512 + 16

/-- A SETF of the Easy-All flag (R261). -/
def State.eaFlag (s : State) (f : Nat) : Bool := bit s.ea.cfg 1 && fldN s.ea.cfg 2 4 = f

/-- Bytes that a RAW window of G granules and rows of n bytes extends over, to the next 64-byte boundary (R158). -/
def rawExtent (g n : Nat) : Nat := align64 (64 + 64 * g * n)

/-- The window bound at b. -/
def Engine.window (r : Engine) (b : Nat) : Nat := handleIdx (SMap.get (fun _ => 0) r.bind b : Word32)

/-- Descriptor g comes into use at regatta time t, in fu: writes to it from that CK_F cycle on are ignored, those with values out of
range too, and IGNORED says so (R156). -/
def State.keepGeom (s : State) (g t : Nat) : State :=
  let late (w : GeomPast) : Bool := w.geom = g && decide ((s.rawOf t).toNat / 2048 ≤ w.cyc)
  let l := s.fc.geomPast.filter late
  match l.getLast? with
  | none => s
  | some w => State.setGeom { s with fc := { s.fc with
      ignored := true
      refused := s.fc.refused && (!l.any (·.first) ||
        (s.fc.geomPast.takeWhile fun x => !(late x && x.first)).any fun x => x.bad && !late x)
      geomPast := s.fc.geomPast.filter fun x => !late x } } g w.old

/-- CAPT at played time d (R86, R140, R151, R156, R158, R160). The write pointer moves over the full extent that a RAW window
declares, also where the next CAPT or the heat's end cuts it short (DESIGN CHOICE, log entry 118). A RAW window that plays no
row has START and FIRST_CYCLE of d (DESIGN CHOICE, log entry 152). -/
def State.capt (s : State) (e d addr mode : Nat) (imm : Word32) (b : Nat) : State :=
  let s := s.endRaw e
  let r := s.eng e
  let s := s.updEng e fun r => { r with captMode := BitVec.ofNat 2 mode, fcsat := false }
  let s := s.updHeat e fun h => { h with captImm := imm, captBind := b, oowAt := [] }
  let i := r.window b
  match mode with
  | 1 =>
    (s.updHeat e fun h => { h with captLeft := imm.toNat }).updEng e fun r =>
      { r with logcnt := BitVec.ofNat 32 (s.region i).recIdx }
  | 2 => s.keepGeom imm.toNat (s.rtOf e d)
  | 3 =>
    let base := (s.region i).rawPtr
    let start := s.rtOf e d / 512
    let s := s.updHeat e fun h => { h with raw := some {
      region := i
      base := base
      granules := imm.toNat
      first := h.cycle
      entry := addr
      start := start
      rows := 0
      written := 0
      lost := false
      headerFits := decide (base + 64 ≤ (s.region i).size) } }
    s.updRegion i fun g => { g with rawPtr := base + rawExtent imm.toNat (popCount r.crew) }
  | _ => s

/-- MARK (R86, R172, R209): D is an edge of the internal source COX. -/
def State.mark (s : State) (e d addr : Nat) (imm : Word32) : State :=
  let s := s.timEdges (fun t src => src = 27 && t.engine = e) (s.rtOf e d * 256)
  let n : Nat := match (s.eng e).heat with
    | some h => h.cycle
    | none => 0
  s.logSend 0 e ([placeN 32 0 e ||| placeN 32 8 addr ||| place 32 24 s.ez.id, imm] ++ words64 (BitVec.ofNat 64 n) ++
    words64 (rtWord (s.rtOf e d / 512)))

/-- FIRE by an engine, with the regatta time of D, exactly (R86). -/
def State.engineFire (s : State) (e d g : Nat) : State :=
  let t := s.rtOf e d
  s.fireGroup g 0 e (t / 512) (t % 512 * 256)

/-- One outward effect of a link at decision point d, sampled at S. -/
def State.linkFx (s : State) (e d : Nat) (smp : Int) (x : LinkFx) : State :=
  let real := s.rtOf e d
  match x with
  | .devFlag f on => s.pendDevFlag (devFlagTick real) f on
  | .regFlag f on =>
    let s := s.sendRegFlag (ceilDiv real 512) f on
    if on && s.eaFlag f then s.raiseEasyAll 0 e else s
  | .arm g => s.sendArm g (real / 512) false false e
  | .fire g => s.engineFire e d g
  | .capt addr mode imm b => s.capt e d addr mode imm b
  | .mark addr imm => s.mark e d addr imm
  | .leadCond k v => s.sendLead e smp k v
  | .fcsat v => s.updEng e fun r => { r with fcsat := v }

/-- The resolved entries take effect at d: the engine's registers and C, then what reaches outside it, in order (R83). -/
def State.applyLink (s : State) (e d : Nat) (smp : Int) (w : LinkWork) : State :=
  let t := ceilDiv (s.rtOf e d) 512
  let s := s.updEng e fun r => { r with
    regs := w.regs
    flagHist := if w.regs.eflags = r.regs.eflags then r.flagHist else (t, w.regs.eflags) :: r.flagHist }
  let s := s.updHeat e fun h => { h with cons := w.cons, link := none }
  w.fx.foldl (fun s x => s.linkFx e d smp x) s

/-- The engine has arrived at barrier group g (R99). -/
def Engine.arrivedAt (r : Engine) (g : Nat) : Bool :=
  r.st = .running &&
  (match r.heat with
    | some h => h.barAt.isSome && (match h.play with | some p => p.kind = .bar && eCtr p.entry = g | none => false)
    | none => false)

/-- When the barrier became complete on every other member of a coupled crew, as their BAR events of group g since this
arrival say; none while one is missing. A member announces that its barrier is complete, with the instant of the last BAR to
start (R99, R263; log entry 113). -/
def State.peersBar (s : State) (r : Engine) (h : Heat) (g : Nat) : Option Nat :=
  (s.peers r).foldl (fun a i =>
    match a, h.barPeers.find? fun p => p.1 = i && p.2.1 = g && decide (h.barAt.getD 0 ≤ p.2.2) with
    | some a, some p => some (max a p.2.2)
    | _, _ => none) (some 0)

/-- The barrier of an engine that waits at group g is complete once it is complete on this device and on every member
(R99). -/
def State.closeBar (s : State) (e g : Nat) : State :=
  let r := s.eng e
  match r.heat with
  | none => s
  | some h =>
    match h.barLocal, h.barDone, s.peersBar r h g with
    | some t, none, some p => s.updHeat e fun h => { h with barDone := some (max t p) }
    | _, _, _ => s

/-- The barrier of group g is complete on this device when every engine that names it has arrived (R99), at `at_` or at the last
arrival. The members of coupled crews hear of it (R263). -/
def State.settleBar (s : State) (at_ g : Nat) : State :=
  let named := s.enginesIn fun r => bit r.barGroups g
  if !named.isEmpty && named.all fun e => (s.eng e).arrivedAt g then
    let last := named.foldl (fun m e => match (s.eng e).heat with
      | some h => max m (h.barAt.getD 0)
      | none => m) at_
    named.foldl (fun s e =>
      let r := s.eng e
      let t := if r.coupled then ceilDiv last 512 * 512 else last
      match r.heat with
      | some h =>
        if h.barLocal.isSome then s.closeBar e g
        else
          let s := s.updHeat e fun h => { h with barLocal := some t }
          (s.sendCrew r 6 g (t / 512)).closeBar e g
      | none => s) s
  else s

/-- Every barrier group is judged again: an engine has become RUNNING, or names other groups (R99). -/
def State.settleBars (s : State) : State := (List.range 16).foldl (fun s g => s.settleBar s.rnow g) s

/-- A BAR starts: the engine arrives (R99). -/
def State.arrive (s : State) (e d g : Nat) : State :=
  let t := s.rtOf e d
  let s := s.updHeat e fun h => { h with barAt := some t, barLocal := none, barDone := none }
  s.settleBar t g

/-- A PLAY-class entry begins at played time d (R83, R96, R99). -/
def State.beginPlay (s : State) (e d : Nat) (k : PlayKind) (addr : Nat) (x : Entry) : State :=
  let s := s.updEng e fun r => { r with
    pc := BitVec.ofNat 12 addr
    regs := if k = .apgrun then { r.regs with apg := { r.regs.apg with upc := BitVec.ofNat 10 (eTgt x) } } else r.regs }
  let s := s.updHeat e fun h => { h with
    phase := .cycling
    play := some ⟨k, addr, x, d, 0, 0, 0⟩
    iterStrobe := false
    iterFail := false
    iterLast := 0
    prevFail := true
    occ := none
    ends := []
    barAt := none
    barLocal := none
    barDone := none }
  if k = .bar then s.arrive e d (eCtr x) else s

/-- The engine plays on: no effect of its link has ended its heat or stopped it (R103). -/
def State.playsOn (s : State) (e : Nat) : Bool := (s.eng e).st = .running

/-- The heat has not ended, and its engine has not faulted: a taken HALT ends it, even where an effect of its link has just held
the engine (R105: the HALT wins). -/
def State.mayHalt (s : State) (e : Nat) : Bool :=
  (s.eng e).active && (match (s.eng e).heat with | some h => h.ended.isNone | none => false)

/-- The outcome of a link at played time d, sampled at S (R83, R86, R101). An effect that takes the device into SAFE has ended the
heat before its HALT or next entry (R103); one that raises Easy-All has held it before its next entry (R261). -/
def State.settleLink (s : State) (e d : Nat) (smp : Int) (o : LinkOut) : State :=
  match o with
  | .go w => s.updHeat e fun h => { h with link := some w }
  | .play w k addr x =>
    let s := s.applyLink e d smp w
    if s.playsOn e then s.beginPlay e d k addr x else s
  | .halt w addr tag =>
    let s := s.applyLink e d smp w
    if s.mayHalt e then
      let s := s.updEng e fun r => { r with st := .halted, pc := BitVec.ofNat 12 addr, resumable := false, holdCause := 0 }
      s.endHeat e ⟨stOk, tag, 0, 0⟩ stTargetDone
    else s
  | .fault _ code addr =>
    let t := s.rtOf e d / 512
    let s := if code = 0x12 then s.sendCrew (s.eng e) 5 0x12 t else s
    s.engineFault e code addr t

end Sys2Proof.Machine
end

