-- ==== Sys2Proof/Machine/Cox.lean ====
section
/-! DEFINITION. The Cox engines (R80 to R107): decision points, the entries, MATCH, WAIT and BAR, flags, holds and launches,
and the registers of an engine. -/

namespace Sys2Proof.Machine

/-- The heat stands at a decision point whose instant has come, on a RUNNING engine. -/
def State.atDecision (s : State) (r : Engine) (h : Heat) : Bool :=
  r.st = .running && h.phase = .decision && decide (h.rtAt h.next ≤ s.rnow)

/-- Execution goes on at an address: a link begins, and the arrival of a BAR ends (R83, R99). `k` lead values have been read at
this decision point (R93). -/
def State.toDecision (s : State) (e pc k : Nat) : State :=
  s.updEng e fun r => { r with heat := r.heat.map fun h => { h with
    phase := .decision
    link := some { linkFrom r.regs h.cons pc with leads := k }
    barAt := none
    barLocal := none
    barDone := none
    barPeers := [] } }

/-- A MATCH on FAIL or PASS, INV taken into account: some true for FAIL (R96, R97). -/
def matchKind (x : Entry) : Option Bool :=
  if eCond x = 1 then some (!bit x 104) else if eCond x = 2 then some (bit x 104) else none

/-- The heat's own channels have failed a compare of the present MATCH iteration or compare after S, as `later` says of the
cycles still to come (R96). -/
def Heat.curBad (h : Heat) (smp : Int) (later : Bool) : Bool := h.iterFail || later || decide (smp < (h.iterLast : Int))

/-- An occurrence is visible at S. -/
def occSeen (occ : Option Nat) (smp : Int) : Bool := match occ with | some t => decide ((t : Int) ≤ smp) | none => false

/-- A bit of every other member's n-th summary at S, with this member's own, is 0. -/
def State.allClear (s : State) (r : Engine) (h : Heat) (smp : Int) (n : Nat) (own : Bool) (f : Summary → Bool) : Option Bool :=
  (s.peerOr r h smp n f).map fun o => !own && !o

/-- The occurrence of a MATCH is visible at S (R96): none where a member of the coupled crew lacks a summary or the lead's
value. On PASS a coupled crew needs one iteration in which no member's compare failed: the one that ends, or the one before
it. On FCSAT with INV it needs that no member has had an event by the start of the MATCH. For both a member sends two summaries for the
S of an iteration's end (R93; log entry 28). -/
def State.matchSeen (s : State) (r : Engine) (h : Heat) (p : Play) (smp : Int) : Option Bool :=
  let x := p.entry
  let inv := bit x 104
  let a := h.rtAt p.start / 512
  let b := h.rtAt smp / 512
  let flag (want : Bool) : Bool :=
    if eCtr x < 96 then histIn (0 : Word64) (fun v => bit v (eCtr x - 32) = want) a b s.flags.devHist
    else histIn (0 : BitVec 16) (fun v => bit v (eCtr x - 96) = want) a b s.flags.regHist
  let leadFlag (want : Bool) : Option Bool :=
    if eCtr x < 96 then s.leadValue r h smp 0 (flag want) else some (flag want)
  if !s.hasSummaries r h smp then none else
  match eCond x with
  | 5 => leadFlag !inv
  | 6 => leadFlag inv
  | 7 => s.leadValue r h smp 0 (histIn (0 : BitVec 5) (fun v => bit v (eCtr x) = !inv) a b s.pins.hist)
  | 8 =>
    if inv then s.allClear r h smp 1 (oowBy h.oowAt p.start) (·.fcsat)
    else (s.peerOr r h smp 0 (·.fcsat)).map (oowBy h.oowAt smp || ·)
  | 9 => some (histIn false (fun v => v = !inv) a b (s.group (eCtr x)).trigHist)
  | _ =>
    if matchKind x = some true then (s.peerOr r h smp 0 (·.fail)).map (occSeen h.occ smp || ·)
    else if r.coupled then
      match s.allClear r h smp 1 (h.curBad smp false) (·.fail), s.allClear r h smp 0 h.prevFail (·.fail),
        s.peerOr r h smp 1 (·.fcsat) with
      | some a, some b, some c => some ((a && (c || h.iterStrobe)) || b)
      | _, _, _ => none
    else some (occSeen h.occ smp)

/-- The lead values that the condition of a MATCH or WAIT has read at its decision point (R93). -/
def leadsOf (x : Entry) : Nat := if condLead x then 1 else 0

/-- A MATCH ends (R97): MATCHED, ITER, C and the NOTE record; execution continues at next. -/
def State.endMatch (s : State) (e : Nat) (h : Heat) (p : Play) (smp : Int) (ok : Bool) : State :=
  let s := s.updEng e fun r => { r with
    regs := { r.regs with matched := ok }
    matchIter := BitVec.ofNat 32 p.pass }
  let s := if (matchKind p.entry).isSome && decide (0 ≤ smp) then
    s.updHeat e fun h => { h with cons := some smp.toNat } else s
  let s := if bit p.entry 107 then
    s.logSend 1 e ([placeN 32 0 e ||| placeN 32 8 p.addr ||| place 32 24 s.ez.id, BitVec.ofNat 32 p.pass, placeB 32 0 ok] ++
      words64 (rtWord (h.tickAt h.next))) else s
  s.toDecision e (p.addr + 1) (leadsOf p.entry)

/-- A member lacks what it needs at a decision point: COUPLED_PEER (R263). -/
def State.peerLack (s : State) (e addr : Nat) : State :=
  let t := s.rtOf e (match (s.eng e).heat with | some h => h.next | none => 0) / 512
  (s.sendCrew (s.eng e) 5 0x12 t).engineFault e 0x12 addr t

/-- The lead value of a MATCH or WAIT. -/
def State.sendOwnLead (s : State) (e : Nat) (smp : Int) (x : Entry) (v : Option Bool) : State :=
  match v with
  | some b => if condLead x then s.sendLead e smp 0 b else s
  | none => s

/-- FCSAT as evaluated last (R107): at S, before INV. -/
def State.noteFcsat (s : State) (e : Nat) (r : Engine) (h : Heat) (smp : Int) (x : Entry) : State :=
  if eCond x = 8 then
    match s.peerOr r h smp 0 (·.fcsat) with
    | some o => s.updEng e fun r => { r with fcsat := o || oowBy h.oowAt smp }
    | none => s
  else s

/-- A COUPLED_PEER fault is due where the heat stands (R102, R263): at a granule boundary, because of a reset, a SAFE entry or
a missing summary of another member, or at the decision point at which another member faults. The start of cycle 0 is no such
boundary, as for a hold (R105). A HELD crew meets no boundary: it faults where it stands once the 384 ticks have passed, and inside a
granule, in an Easy-All hold, not at all (DESIGN CHOICE, log entry 136). -/
def State.peerFaultDue (s : State) (r : Engine) (h : Heat) : Bool :=
  h.atBoundary && h.phase ≠ .ended &&
  ((match r.peerFaultAt with
    | some t => decide (0 < h.cycle) && (decide (t ≤ h.startAt h.next) || (r.st = .held && decide (t ≤ s.rnow)))
    | none => false) ||
   (match r.peerDecAt with
    | some t => h.phase = .decision && decide (t / 512 ≤ h.startAt h.next / 512)
    | none => false))

/-- The COUPLED_PEER fault of a member whose entry does not fault: the address recorded is that of the entry in play (DESIGN
CHOICE, log entry 114). -/
def State.takePeerFault (s : State) (e : Nat) (h : Heat) : State :=
  s.engineFault e 0x12 (s.eng e).pc.toNat (if (s.eng e).st = .held then s.rtick else h.tickAt h.next)

/-- Something must happen before the heat's next cycle starts: it is held or ended there, or writes wait for the boundary
(R71, R102, R105). -/
def State.blocked (s : State) (r : Engine) (h : Heat) : Bool :=
  h.atBoundary && (h.pendTsets.any h.tsetDue || h.holdDue r.latency || h.abortDue r.latency || s.peerFaultDue r h)

/-- The level that lane k measured last before an instant of the device's clock, in fu (R75, R76). -/
def Lane.levelAt (l : Lane) (raw : Int) : BitVec 3 := histAt 0 raw l.actHist

/-- Each channel of the crew, and the spare that carries one, steps its applied level toward the level that the lane had measured at
the start of the granule, an instant of the device's clock (R76). -/
def State.stepLevels (s : State) (r : Engine) (raw : Int) : State :=
  let s := r.chans.foldl (fun s c =>
    s.updAct (17 * (c / 16) + c % 16) fun a => { a with applied := stepLevel a.applied ((s.lane (c / 16)).levelAt raw) }) s
  ((List.range 16).filter fun k =>
    let j := (s.calLane k).carries.toNat
    decide (j < 16) && r.crew.getLsbD (16 * k + j)).foldl
    (fun s k => s.updAct (17 * k + 16) fun a => { a with applied := stepLevel a.applied ((s.lane k).levelAt raw) }) s

/-- The heat is about to play the first cycle of a granule that has not begun. -/
def Heat.granuleAhead (h : Heat) : Bool :=
  h.phase = .cycling && !h.begun && (match h.play with | some p => p.cyc = 0 | none => false)

/-- A granule begins, if the crew starts one where it stands: the applied levels step (R76). -/
def State.startGranule (s : State) (e : Nat) : State :=
  let r := s.eng e
  match r.heat with
  | none => s
  | some h =>
    if r.st = .running && h.granuleAhead && !s.blocked r h then
      (s.stepLevels r (s.rawOf (h.startAt h.next))).updHeat e fun h => { h with begun := true }
    else s

/-- The end of a MATCH iteration (R96): the MATCH ends, or its segment is replayed. -/
def State.endIteration (s : State) (e : Nat) (r : Engine) (h : Heat) (p : Play) : State :=
  let smp := r.sample h.next
  let seen := s.matchSeen r h p smp
  let s := (s.sendOwnLead e smp p.entry seen).noteFcsat e r h smp p.entry
  match seen with
  | none => s.peerLack e p.addr
  | some ok =>
    if ok || decide ((eImm p.entry).toNat ≤ p.pass) then s.endMatch e h p smp ok
    else if s.peerFaultDue r h then s.takePeerFault e h
    else s.updHeat e fun h => { h with
      phase := .cycling
      prevFail := h.iterFail
      iterStrobe := false
      iterFail := false
      iterLast := 0 }

/-- An outcome takes effect where the heat stands at a decision point. A fault of the member's own link is taken with its own code and
address; else, where another member faults at the same point, COUPLED_PEER is (R101, R102). -/
def State.settleAt (s : State) (e : Nat) (o : LinkOut) : State :=
  let r := s.eng e
  match r.heat with
  | none => s
  | some h =>
    match o with
    | .fault _ _ _ => s.settleLink e h.next (r.sample h.next) o
    | _ => if s.peerFaultDue r h then s.takePeerFault e h else s.settleLink e h.next (r.sample h.next) o

/-- TSET_TAKES_EFFECT (R71): at the crew's granule boundary, whose granule then begins. -/
def execTsetTakesEffect (e : EngineId) (s : State) : Host.Outcome State Fault Refusal :=
  .next (inRun s fun s =>
    match (s.eng e.val).heat with
    | some h => (s.applyPendTsets e.val h.tsetDue).startGranule e.val
    | none => s)

/-- Resolve the heat's link from the table and let it take effect (R83). -/
def State.resolve (s : State) (e : Nat) : State :=
  match (s.eng e).heat with
  | some h =>
    match h.link with
    | some w => (s.settleAt e (s.runLink e ((s.eng e).sample h.next) 18 w)).startGranule e
    | none => s
  | none => s

/-- A table entry that cannot be read (R101). The engine meets it while it resolves a link ahead of its decision point (R95), so that a
coupled member can announce the fault: there it concerns the links still to be resolved (DESIGN CHOICE, log entry 137). -/
def State.noteEcc (s : State) (e : Nat) (ecc : Option (BitVec 12)) (due : Bool) : State :=
  match ecc with
  | some a => if due then s.updEng e fun r => { r with ecc := if r.ecc.contains a.toNat then r.ecc else a.toNat :: r.ecc } else s
  | none => s

/-- DECISION_POINT (R83, R92, R96, R101, R102): `ecc` is a table entry that an uncorrectable error keeps from being read. -/
def execDecisionPoint (e : EngineId) (ecc : Option (BitVec 12)) (s : State) : Host.Outcome State Fault Refusal :=
  .next (inRun s fun s =>
    let r := s.eng e.val
    match r.heat with
    | none => s
    | some h =>
      if !s.atDecision r h then s
      else
        let s := s.noteEcc e.val ecc !r.coupled
        let s := match h.link, h.play with
          | some _, _ => s.resolve e.val
          | none, some p => (s.endIteration e.val r h p).resolve e.val
          | none, none => s
        (s.noteEcc e.val ecc r.coupled).startGranule e.val)

/-- MATCH_ITERATIONS_EXHAUSTED (R96, R97): the last iteration has ended. -/
def execMatchIterationsExhausted (e : EngineId) (s : State) : Host.Outcome State Fault Refusal :=
  .next (inRun s fun s =>
    let r := s.eng e.val
    match r.heat with
    | none => s
    | some h =>
      match h.link, h.play with
      | none, some p =>
        if s.atDecision r h && decide ((eImm p.entry).toNat ≤ p.pass) then s.endIteration e.val r h p else s
      | _, _ => s)

/-- WAIT_BAR_TIMEOUT (R98): execution continues at TGT. -/
def execWaitBarTimeout (e : EngineId) (s : State) : Host.Outcome State Fault Refusal :=
  .next (inRun s fun s =>
    let r := s.eng e.val
    match r.heat with
    | none => s
    | some h =>
      match h.play with
      | some p => if r.st = .running && h.phase = .expired then s.toDecision e.val (eTgt p.entry) (leadsOf p.entry) else s
      | none => s)

/-- An entry executed as the next of the link in resolution (R83, R86; log entry 29). -/
def State.entryRow (s : State) (e : Nat) (x : Entry) : State :=
  let r := s.eng e
  match r.heat with
  | none => s
  | some h =>
    match h.link with
    | some w => if s.atDecision r h then (s.settleAt e (s.linkStep e (r.sample h.next) w x)).startGranule e else s
    | none => s

/-- NOP (R86). -/
def execNop (e : EngineId) (s : State) : Host.Outcome State Fault Refusal :=
  .next (inRun s fun s => s.entryRow e.val (mkEntry 0x00 0 0 0 0 0 noSeg))

/-- HALT (R86). -/
def execHalt (e : EngineId) (cond flg ctr : Byte) (imm : Word32) (s : State) : Host.Outcome State Fault Refusal :=
  .next (inRun s fun s => s.entryRow e.val (mkEntry 0x01 cond flg ctr imm 0 noSeg))

/-- PLAY (R86). -/
def execPlay (e : EngineId) (seg : Seg) (s : State) : Host.Outcome State Fault Refusal :=
  .next (inRun s fun s => s.entryRow e.val (mkEntry 0x02 0 0 0 0 0 seg))

/-- PLAYN (R86). -/
def execPlayn (e : EngineId) (imm : Word32) (seg : Seg) (s : State) : Host.Outcome State Fault Refusal :=
  .next (inRun s fun s => s.entryRow e.val (mkEntry 0x03 0 0 0 imm 0 seg))

/-- IDLE (R86). -/
def execIdle (e : EngineId) (imm : Word32) (s : State) : Host.Outcome State Fault Refusal :=
  .next (inRun s fun s => s.entryRow e.val (mkEntry 0x04 0 0 0 imm 0 noSeg))

/-- JMP (R86). -/
def execJmp (e : EngineId) (tgt : BitVec 16) (s : State) : Host.Outcome State Fault Refusal :=
  .next (inRun s fun s => s.entryRow e.val (mkEntry 0x08 0 0 0 0 tgt noSeg))

/-- JIF (R86). -/
def execJif (e : EngineId) (cond flg ctr : Byte) (tgt : BitVec 16) (s : State) : Host.Outcome State Fault Refusal :=
  .next (inRun s fun s => s.entryRow e.val (mkEntry 0x09 cond flg ctr 0 tgt noSeg))

/-- CALL (R86). -/
def execCall (e : EngineId) (tgt : BitVec 16) (s : State) : Host.Outcome State Fault Refusal :=
  .next (inRun s fun s => s.entryRow e.val (mkEntry 0x0A 0 0 0 0 tgt noSeg))

/-- RET (R86). -/
def execRet (e : EngineId) (s : State) : Host.Outcome State Fault Refusal :=
  .next (inRun s fun s => s.entryRow e.val (mkEntry 0x0B 0 0 0 0 0 noSeg))

/-- LOOP (R86). -/
def execLoop (e : EngineId) (ctr : Byte) (imm : Word32) (s : State) : Host.Outcome State Fault Refusal :=
  .next (inRun s fun s => s.entryRow e.val (mkEntry 0x0C 0 0 ctr imm 0 noSeg))

/-- ENDL (R86). -/
def execEndl (e : EngineId) (ctr : Byte) (s : State) : Host.Outcome State Fault Refusal :=
  .next (inRun s fun s => s.entryRow e.val (mkEntry 0x0D 0 0 ctr 0 0 noSeg))

/-- MATCH (R86, R96). -/
def execMatchEntry (e : EngineId) (cond flg ctr : Byte) (imm : Word32) (seg : Seg) (s : State) :
    Host.Outcome State Fault Refusal :=
  .next (inRun s fun s => s.entryRow e.val (mkEntry 0x10 cond flg ctr imm 0 seg))

/-- WAIT (R86, R98). -/
def execWaitEntry (e : EngineId) (cond flg ctr : Byte) (imm : Word32) (tgt : BitVec 16) (s : State) :
    Host.Outcome State Fault Refusal :=
  .next (inRun s fun s => s.entryRow e.val (mkEntry 0x11 cond flg ctr imm tgt noSeg))

/-- BAR (R86, R99). -/
def execBarEntry (e : EngineId) (ctr : Byte) (imm : Word32) (tgt : BitVec 16) (s : State) :
    Host.Outcome State Fault Refusal :=
  .next (inRun s fun s => s.entryRow e.val (mkEntry 0x22 0 0 ctr imm tgt noSeg))

/-- APGRUN (R86). -/
def execApgrun (e : EngineId) (tgt : BitVec 16) (len : BitVec 20) (s : State) : Host.Outcome State Fault Refusal :=
  .next (inRun s fun s => s.entryRow e.val (mkEntry 0x18 0 0 0 0 tgt ⟨0, 0, len⟩))

/-- APGLD (R86). -/
def execApgld (e : EngineId) (ctr : Byte) (imm : Word32) (s : State) : Host.Outcome State Fault Refusal :=
  .next (inRun s fun s => s.entryRow e.val (mkEntry 0x19 0 0 ctr imm 0 noSeg))

/-- SETF (R86, R100). -/
def execSetf (e : EngineId) (ctr : Byte) (s : State) : Host.Outcome State Fault Refusal :=
  .next (inRun s fun s => s.entryRow e.val (mkEntry 0x20 0 0 ctr 0 0 noSeg))

/-- CLRF (R86, R100). -/
def execClrf (e : EngineId) (ctr : Byte) (s : State) : Host.Outcome State Fault Refusal :=
  .next (inRun s fun s => s.entryRow e.val (mkEntry 0x21 0 0 ctr 0 0 noSeg))

/-- ARM (R86). -/
def execArm (e : EngineId) (ctr : Byte) (s : State) : Host.Outcome State Fault Refusal :=
  .next (inRun s fun s => s.entryRow e.val (mkEntry 0x28 0 0 ctr 0 0 noSeg))

/-- FIRE (R86). -/
def execFire (e : EngineId) (ctr : Byte) (s : State) : Host.Outcome State Fault Refusal :=
  .next (inRun s fun s => s.entryRow e.val (mkEntry 0x29 0 0 ctr 0 0 noSeg))

/-- CAPT (R86, R87). -/
def execCapt (e : EngineId) (ctr : Byte) (imm : Word32) (bind : BitVec 4) (s : State) :
    Host.Outcome State Fault Refusal :=
  .next (inRun s fun s => s.entryRow e.val (mkEntry 0x2A 0 0 ctr imm 0 ⟨bind, 0, 0⟩))

/-- MARK (R86). -/
def execMark (e : EngineId) (imm : Word32) (s : State) : Host.Outcome State Fault Refusal :=
  .next (inRun s fun s => s.entryRow e.val (mkEntry 0x2B 0 0 0 imm 0 noSeg))

/-- LDC (R86). -/
def execLdc (e : EngineId) (ctr : Byte) (imm : Word32) (s : State) : Host.Outcome State Fault Refusal :=
  .next (inRun s fun s => s.entryRow e.val (mkEntry 0x30 0 0 ctr imm 0 noSeg))

/-- SYM (R86). -/
def execSym (e : EngineId) (ctr : Byte) (s : State) : Host.Outcome State Fault Refusal :=
  .next (inRun s fun s => s.entryRow e.val (mkEntry 0x38 0 0 ctr 0 0 noSeg))

/-- COUPLED_PEER_FAULT (R102). -/
def execCoupledPeerFault (e : EngineId) (s : State) : Host.Outcome State Fault Refusal :=
  .next (inRun s fun s =>
    let r := s.eng e.val
    match r.heat with
    | some h => if r.active && s.peerFaultDue r h then s.takePeerFault e.val h else s
    | none => s)

/-- COX_CTRL_RESET (R103). -/
def execCoxCtrlReset (e : EngineId) (v : Word32) (s : State) : Host.Outcome State Fault Refusal :=
  .next (whenReady s fun s => if bit v 0 then s.engineReset e.val else s)

/-- HEAT_LAUNCH (R54, R104): cycle 0 starts on the chosen tick, and the first link takes effect. No cycle is played while Easy-All
is latched (R261). -/
def execHeatLaunch (e : EngineId) (ecc : Option (BitVec 12)) (s : State) : Host.Outcome State Fault Refusal :=
  .next (inRun s fun s =>
    let r := s.eng e.val
    match r.heat with
    | none => s
    | some h =>
      match h.launchAt with
      | none => s
      | some t =>
        if r.st ≠ .running || h.phase ≠ .waiting || s.ea.latched || s.rnow < t then s
        else
          let s := s.updHeat e.val fun h => { h with
            phase := .decision
            bases := [(0, t)]
            link := some (linkFrom r.regs none h.start) }
          let s := s.updEng e.val fun r => { r with launch := t / 512 }
          (((s.noteEcc e.val ecc !r.coupled).resolve e.val).noteEcc e.val ecc r.coupled))

/-- HOLD_TAKES_EFFECT (R105): at G an ABORT ends the heat, or a hold makes the engine HELD. -/
def execHoldTakesEffect (e : EngineId) (s : State) : Host.Outcome State Fault Refusal :=
  .next (inRun s fun s =>
    let r := s.eng e.val
    match r.heat with
    | none => s
    | some h =>
      if r.st ≠ .running || s.rnow < h.startAt h.next then s
      else if h.abortDue r.latency then s.abortHeat e.val
      else if h.holdDue r.latency then
        match h.hold with
        | some q => s.holdEngine e.val q.cause true
        | none => s
      else s)

/-- The cycle stream resumes on the tick that starts at regatta time t, with its fu phase (R55). -/
def Heat.resume (h : Heat) (t : Nat) : Heat :=
  { h with resumeAt := none, bases := (h.next, t + h.next % 512 - h.next) :: h.bases }

/-- HEAT_RESUME_TICK (R55, R105). No cycle is played while Easy-All is latched (R261): a HEAT_RESUME that waits then
completes NOT_READY. While a device hold request is in force the resumed engine is held again (log entry 30). -/
def execHeatResumeTick (e : EngineId) (s : State) : Host.Outcome State Fault Refusal :=
  .next (inRun s fun s =>
    let r := s.eng e.val
    match r.heat with
    | none => s
    | some h =>
      match h.resumeAt with
      | none => s
      | some t =>
        if r.st ≠ .held || s.rnow < t then s
        else if s.ea.latched then
          (s.finishAll (fun c => c.opc = 0x03 && c.holdOf e.val) stNotReady).updHeat e.val fun h => { h with resumeAt := none }
        else
          let s := s.updEng e.val fun r => { r with st := .running, resumable := false, holdCause := 0 }
          let s := s.updHeat e.val fun h => h.resume t
          let s := s.finishAll (fun c => c.opc = 0x03 && c.holdOf e.val) stOk 0 (rtWord (t / 512))
          let s := if s.dev.holdReq then s.requestHold e.val 2 else s
          s.settleBars.settleModes.startGranule e.val)

/-- The earliest tick at which one of some pending flag changes applies, if it has come. -/
def dueTick (now : Nat) (l : List FlagPend) : Option Nat :=
  (l.filter fun p => decide (p.at_ ≤ now)).foldl (fun m p => match m with
    | none => some p.at_
    | some t => some (min t p.at_)) none

/-- The changes of one tick: a flag that is both set and cleared is set (R100). -/
def applyFlags {n : Nat} (v : BitVec n) (t : Nat) (l : List FlagPend) : BitVec n :=
  let l := l.filter fun p => p.at_ = t
  let v := (l.filter fun p => !p.on).foldl (fun v p => setBit v p.bit false) v
  (l.filter fun p => p.on).foldl (fun v p => setBit v p.bit true) v

/-- DEVICE_FLAG_APPLY (R100). -/
def execDeviceFlagApply (s : State) : Host.Outcome State Fault Refusal :=
  .next (inRun s fun s =>
    match dueTick s.rtick s.flags.devPend with
    | none => s
    | some t =>
      let v := applyFlags s.flags.dev t s.flags.devPend
      { s with flags := { s.flags with
        dev := v
        devPend := s.flags.devPend.filter fun p => p.at_ ≠ t
        devHist := (t, v) :: s.flags.devHist } })

/-- REGATTA_FLAG_APPLY (R100, R244). -/
def execRegattaFlagApply (s : State) : Host.Outcome State Fault Refusal :=
  .next (inRun s fun s =>
    match dueTick s.rtick s.flags.regPend with
    | none => s
    | some t =>
      let v := applyFlags s.flags.reg t s.flags.regPend
      { s with flags := { s.flags with
        reg := v
        regPend := s.flags.regPend.filter fun p => p.at_ ≠ t
        regHist := (t, v) :: s.flags.regHist } })

/-- A host write of device flags, applied 16 ticks later (R100). -/
def State.hostDevFlags (s : State) (v : Word64) (on : Bool) : State :=
  (bitsOf 64 v).foldl (fun s f => s.pendDevFlag (s.rtick + 16) f on) s

/-- COX_DFLAGS_SET (R100). -/
def execCoxDflagsSet (_e : EngineId) (v : Word64) (s : State) : Host.Outcome State Fault Refusal :=
  .next (whenReady s fun s => s.hostDevFlags v true)

/-- COX_DFLAGS_CLR (R100). -/
def execCoxDflagsClr (_e : EngineId) (v : Word64) (s : State) : Host.Outcome State Fault Refusal :=
  .next (whenReady s fun s => s.hostDevFlags v false)

/-- A host write of regatta flags, applied 320 ticks later on every device (R100, R242). -/
def State.hostRegFlags (s : State) (v : Word32) (on : Bool) : State :=
  (bitsOf 16 v).foldl (fun s f => s.sendRegFlag s.rtick f on) s

/-- COX_RFLAGS_SET (R100). -/
def execCoxRflagsSet (_e : EngineId) (v : Word32) (s : State) : Host.Outcome State Fault Refusal :=
  .next (whenReady s fun s => s.hostRegFlags v true)

/-- COX_RFLAGS_CLR (R100). -/
def execCoxRflagsClr (_e : EngineId) (v : Word32) (s : State) : Host.Outcome State Fault Refusal :=
  .next (whenReady s fun s => s.hostRegFlags v false)

/-- The snapshot of COX_TBL_SEL (R107). -/
def Engine.tblSnapshot (r : Engine) (v : Word32) : Entry :=
  let a := fldN v 0 12
  if bit v 16 then (if a < 1024 then r.microAt a else 0) else r.entryAt a

/-- COX_TBL_SEL_WRITE (R107). -/
def execCoxTblSelWrite (e : EngineId) (v : Word32) (s : State) : Host.Outcome State Fault Refusal :=
  .next (whenReady s fun s => s.updEng e.val fun r => { r with tblSel := v &&& 0x10FFF, tblSnap := r.tblSnapshot v })

/-- COX_CFG_WRITE (R99, R107): ignored while the engine is RUNNING or HELD. A barrier that waited only for this engine is then
complete. -/
def execCoxCfgWrite (e : EngineId) (v : Word32) (s : State) : Host.Outcome State Fault Refusal :=
  .next (whenReady s fun s =>
    (s.updEng e.val fun r => if r.active then r else { r with idleTset := fld v 0 8, barGroups := fld v 16 16 }).settleBars)

end Sys2Proof.Machine
end

