-- ==== Sys2Proof/Machine/Cycle.lean ====
section
/-! DEFINITION. One tester cycle of a crew (R53, R62 to R65, R72, R110 to R120, R129, R138, R371, R372), and the granule
boundary (R76, R98). -/

namespace Sys2Proof.Machine

/-- What the formatter does at an edge (R62). -/
inductive EdgeAct where
  | enable
  | drive (b : Bool)
  | off
deriving DecidableEq, Repr

/-- The drive actions of a cycle at their offsets (R62, R65): `d u` is the value of UI u. -/
def TSet.acts (t : TSet) (drives : Bool) (d : Nat → Bool) : List (Nat × EdgeAct) :=
  if !drives then [(t.dOff.toNat, .off)]
  else if 1 < t.m then (List.range t.m).map fun u => (t.dData.toNat + u * t.period.toNat / t.m, .drive (d u))
  else
    let lead (b : Bool) := [(t.dOn.toNat, EdgeAct.drive b), (t.dData.toNat, .drive (d 0)), (t.dRet.toNat, .drive b)]
    match t.fmt.toNat with
    | 0 => [(t.dOn.toNat, .enable), (t.dData.toNat, .drive (d 0))]
    | 1 => lead false
    | 2 => lead true
    | 3 => lead (!d 0)
    | _ => [(t.dData.toNat, .drive (d 0))]

/-- How many APG states the model keeps beside the present one: those before each of the last four played cycles, whatever their
length and also across a hold. They are the "recent tick" of a readback (R137; DESIGN CHOICE, log entry 48). -/
def apgKeep : Nat := 4

/-- One action at an instant. An action that drives the level the pin already has makes no transition (R62). The second part
collects the instants at which the channel's output changes: off to a level and a level to off count as transitions too (R75;
DESIGN CHOICE, log entry 115). In loopback the comparator follows the driver (R371). -/
def Chan.edge (p : Chan × List Nat) (fu : Nat) (a : EdgeAct) : Chan × List Nat :=
  let c := p.1
  let d : Drive := match a with
    | .enable => if c.drive = .off then .level c.lastDriven else c.drive
    | .drive b => .level b
    | .off => .off
  let last := match a with
    | .drive b => b
    | _ => c.lastDriven
  let c' := { c with drive := d, lastDriven := last }
  if c'.output = c.output then (c', p.2)
  else
    let c' := { c' with driveHist := (fu, c'.output) :: c.driveHist.take histKeep }
    (if c.active.selfchk = 1 then c'.judgeAt fu else c', fu :: p.2)

/-- Which of the lane's paths, 0 to 15 or 16 for the spare, serves channel c's drive or strobe edges (R226). -/
def State.pathOf (s : State) (c : Nat) (strobe : Bool) : Nat :=
  let l := s.calLane (c / 16)
  if (if strobe then l.strobeSw else l.driveSw) && l.carries.toNat = c % 16 then 16 else c % 16

/-- The activity offset of path p of lane k, 0 to 15 or 16 for the spare; 0 while compensation is off (R72, R76, R78). -/
def State.pathOffset (s : State) (k p : Nat) : Int :=
  let a := s.act (17 * k + p)
  if (s.lane k).actEn then (fld a.ofs (5 * a.applied.toNat) 5 : BitVec 5).toInt else 0

/-- The tap table of the drive or strobe vernier of path p of lane k (R73). -/
def State.tapsOf (s : State) (k p : Nat) (strobe : Bool) : List (BitVec 7) := (s.tap (2 * (17 * k + p) + strobe.toNat)).taps

/-- The path that serves an edge of channel c placed at regatta instant t, in fu, with its taps: before a switch instant the
path and the table of before (R224 to R226). -/
def State.pathAt (s : State) (c : Nat) (strobe : Bool) (t : Nat) : Nat × List (BitVec 7) :=
  let l := s.calLane (c / 16)
  let p := s.pathOf c strobe
  match if strobe then l.strobeWas else l.driveWas with
  | some w => if w.chan = c % 16 && decide (t < w.at_) then (w.path, w.taps) else (p, s.tapsOf (c / 16) p strobe)
  | none => (p, s.tapsOf (c / 16) p strobe)

/-- The activity offset of the path that serves channel c at regatta instant t; 0 while compensation is off (R72, R76, R78, R226). -/
def State.actOffset (s : State) (c : Nat) (strobe : Bool) (t : Nat) : Int := s.pathOffset (c / 16) (s.pathAt c strobe t).1

/-- E′ for an edge at offset o of the cycle that starts at regatta time `start`, as an instant of the device's clock (R72). -/
def State.corrected (s : State) (c : Nat) (strobe : Bool) (start o : Nat) : Nat :=
  (s.rawOf (start + o) + s.actOffset c strobe (start + o)).toNat

/-- Tick, UI index and fine part of a corrected time (R72). -/
def splitFu (t : Nat) : Nat × Nat × Nat := (t / 512, t % 512 / 64, t % 64)

/-- The vernier tap that an edge at offset o of a cycle selects on the path that serves channel c (R72, R73). -/
def State.tapOf (s : State) (c : Nat) (strobe : Bool) (start o : Nat) : BitVec 7 :=
  (s.pathAt c strobe (start + o)).2.getD (splitFu (s.corrected c strobe start o)).2.2 0

/-- What a channel does in a cycle: its symbol entry (R118), and per UI its data bit and its mapped APG bit. -/
structure Cell where
  sym : BitVec 16
  data : Nat → Bool
  apg : Nat → Bool

/-- The driven value of a UI (R118, R119). -/
def Cell.drive (x : Cell) (u : Nat) : Bool :=
  match fldN x.sym 1 3 with
  | 1 => true
  | 2 => x.data u
  | 3 => x.apg u
  | 4 => !x.data u
  | _ => false

/-- The expectation of a UI; none where there is no strobe (R118, R119). -/
def Cell.expect (x : Cell) (u : Nat) : Option Cmp :=
  match fldN x.sym 4 3 with
  | 1 => some .L
  | 2 => some .H
  | 3 => some .M
  | 4 => some (if x.data u then .H else .L)
  | 5 => some (if x.apg u then .H else .L)
  | _ => none

/-- The timing set index of a vector row, and the symbol and data of the channel at position i (R110, R113). -/
def rowTset (row : Nat) : Nat := row % 256
def rowSymbol (m row i : Nat) : Nat := row / 2 ^ (8 + i * (4 + m)) % 16
def rowData (m row i u : Nat) : Bool := decide (u < m) && (row / 2 ^ (8 + i * (4 + m) + 4 + u)) % 2 = 1

/-- The present cycle of a heat: played start, timing set index, the output vector O, and what each channel does; `idle`
places no edge and makes no strobe. `diff` counts the rows of R112. -/
structure Cycle where
  start : Nat
  tset : Nat
  idle : Bool
  o : BitVec 96
  cell : Nat → Cell
  diff : Nat

/-- O of a cycle outside APGRUN (R132). -/
def Engine.stillOutput (r : Engine) : BitVec 96 := r.output r.regs.apg 0 0 false

/-- A cycle of a segment (R110 to R113, R118 to R121, R132): its row of the fetched copy (R123). -/
def State.vectorCycle (s : State) (r : Engine) (h : Heat) (p : Play) : Cycle :=
  let i := (s.segRegion r (eBind p.entry)).getD 0
  let g := s.region i
  let n := eBase p.entry + p.gran
  let rows := g.slices.map fun k => (k.1,
    match h.fetched.find? fun f => f.region = i && f.gran = n with
    | some f => leNat (sliceB f.data (g.granBase k.1 + p.cyc * (k.2 / 8)) (k.2 / 8))
    | none => s.sliceRow i (g.sliceBase k.1) k.2 n p.cyc)
  let t := match rows with
    | [] => 0
    | x :: _ => rowTset x.2
  let o := r.stillOutput
  { start := h.next
    tset := t
    idle := false
    o := o
    diff := (rows.filter fun x => rowTset x.2 ≠ t).length
    cell := fun c =>
      let row := ((rows.find? fun x => x.1 = c / 16).map (·.2)).getD 0
      let pos := ((laneChans g.mask (c / 16)).filter fun j => decide (j < c)).length
      { sym := r.symEntry r.regs.symBank.toNat (rowSymbol g.mux row pos)
        data := rowData g.mux row pos
        apg := r.apgBit o c } }

/-- A cycle of APGRUN (R120, R129, R135). -/
def State.apgCycle (_s : State) (r : Engine) (h : Heat) : Cycle :=
  let u := r.microAt r.regs.apg.upc.toNat
  let o := r.output r.regs.apg (uCmd u) (uDsel u) (uTopo u)
  { start := h.next
    tset := uTset u
    idle := false
    o := o
    diff := 0
    cell := fun c =>
      let pin := r.pin c
      let n := if (uCmd u).testBit (fldN pin 20 4) then fldN pin 16 4 else fldN pin 12 4
      { sym := r.symEntry r.regs.symBank.toNat n
        data := r.apgBit o c
        apg := r.apgBit o c } }

/-- An idle cycle (R86): its period is that of IDLE_TSET. -/
def State.idleCycle (_s : State) (r : Engine) (h : Heat) : Cycle :=
  { start := h.next
    tset := r.idleTset.toNat
    idle := true
    o := r.stillOutput
    diff := 0
    cell := fun _ => ⟨0, fun _ => false, fun _ => false⟩ }

/-- The cycle the heat plays next. -/
def State.nextCycle (s : State) (r : Engine) (h : Heat) (p : Play) : Cycle :=
  match p.kind with
  | .play | .playn | .matchK => s.vectorCycle r h p
  | .apgrun => s.apgCycle r h
  | _ => s.idleCycle r h

/-- The timing set of channel c in a cycle. -/
def State.cycleSet (s : State) (x : Cycle) (c : Nat) : TSet := s.tset (256 * c + x.tset)

/-- The crew part of the cycle's timing set (R57), from the lowest channel of the crew. A crew formed from an empty one may hold
channels that differ in PERIOD or MUX, since R58 copies only into a crew that has channels: the lowest one times the crew, and
each keeps its own MUX (DESIGN CHOICE, log entry 116). -/
def State.crewSet (s : State) (r : Engine) (x : Cycle) : TSet := s.cycleSet x (r.chans.headD 0)

/-- The comparator state at instant t. -/
def Chan.cmpAt (c : Chan) (t : Nat) : Cmp := histAt .L t c.cmpHist

/-- Two instants are less than 24 fu apart (R372). -/
def near24 (a b : Nat) : Bool := decide (a < b + 24) && decide (b < a + 24)

/-- The comparator states before and after the drive edge less than 24 fu from t, if there is one (R372). `nxt` is the first drive
edge after the history ends, with the state that follows it. -/
def Chan.nearEdge (c : Chan) (nxt : Option (Nat × Cmp)) (t : Nat) : Option (Cmp × Cmp) :=
  match c.driveHist.find? fun e => near24 e.1 t with
  | some (te, _) => some (c.cmpAt (te - 1), c.cmpAt te)
  | none =>
    match nxt with
    | some (te, st) => if near24 te t then some (c.cmpAt t, st) else none
    | none => none

/-- What a strobe at t judges in loopback (R371, R372): the level its driver presents; near a drive edge the level before
it, the level after it or M, as the n-th free choice says. With VOH = VOL there is no state M (R34). -/
def Chan.loopAt (c : Chan) (nxt : Option (Nat × Cmp)) (t n : Nat) : Cmp :=
  match c.nearEdge nxt t with
  | none => c.cmpAt t
  | some (x, y) =>
    match Config.strobeChoice n with
    | 0 => x
    | 1 => y
    | 2 => if c.active.voh = c.active.vol then y else .M

/-- The longest run within (a, b] in which a state history, newest first, is not in state x. `e` is where the part already
seen begins, and `hi` where the run it belongs to ends. -/
def longestOff (x : Cmp) (a : Nat) : Nat → Option Nat → List (Nat × Cmp) → Nat
  | _, _, [] => 0
  | e, hi, (t, c) :: r =>
    if t ≤ a then 0
    else if e < t then longestOff x a e hi r
    else if c = x then longestOff x a t none r
    else max (hi.getD e - t) (longestOff x a t (some (hi.getD e)) r)

/-- 40 ps in whole fu, rounded up (R64). -/
def excursionFu : Nat := 33

/-- A WINDOW strobe fails (R63, R64): an excursion shorter than 40 ps may pass, as the free choice says. -/
def windowFails (hist : List (Nat × Cmp)) (x at_ : Cmp) (a b : Nat) (free : Bool) : Bool :=
  if at_ ≠ x then true
  else
    let n := longestOff x a b none hist
    if excursionFu ≤ n then true else if n = 0 then false else free

/-- A strobe result (R138): channel, UI, strobe instant in played time (R91) and on the device's clock, fail and MASK. -/
structure Res where
  c : Nat
  u : Nat
  at_ : Nat
  raw : Nat
  fail : Bool
  mask : Bool
deriving DecidableEq, Repr

/-- The channel's comparator takes its node from its own driver (R371). -/
def Chan.looped (c : Chan) : Bool := c.active.selfchk = 1

/-- What a strobe at t judges. -/
def Chan.strobeAt (c : Chan) (nxt : Option (Nat × Cmp)) (t n : Nat) : Cmp := if c.looped then c.loopAt nxt t n else c.cmpAt t

/-- The strobe of UI u fails against x: opened at a, closed at b, instants of the device's clock; `n` numbers its free choices.
Near a drive edge a window may see its close as R372 says, for less than 40 ps. -/
def Chan.strobeFails (c : Chan) (nxt : Option (Nat × Cmp)) (win : Bool) (x : Cmp) (a b n : Nat) : Bool :=
  let st := c.strobeAt nxt a n
  let free := bit (Config.freeBits n) 0
  if win then windowFails c.cmpHist x st a b free || (c.looped && c.strobeAt nxt b (n + 4) ≠ x && free) else st ≠ x

/-- How many instants of used edges the model keeps: those of two cycles at least. -/
def usedKeep : Nat := 16

/-- The offsets of the used edges of a channel's drive or strobe path in a cycle (R62, R66). -/
def TSet.usedOf (t : TSet) (drives strobe : Bool) : List Nat :=
  (if strobe then t.strobeEdges else if drives then t.driveEdges else [(3, 0, t.dOff.toNat)]).map (·.2.2)

/-- The used edges of channel c in a cycle that starts at regatta time `start`, as programmed instants; an idle cycle places none. -/
def State.usedEdges (s : State) (start : Nat) (x : Cycle) (c : Nat) (strobe : Bool) : List Nat :=
  if x.idle then [] else ((s.cycleSet x c).usedOf (bit (x.cell c).sym 0) strobe).map (start + ·)

/-- The drive actions of channel c in a cycle that starts at regatta time `start`, each at its instant of the device's clock. -/
def State.chanActs (s : State) (start : Nat) (x : Cycle) (c : Nat) : List (Nat × EdgeAct) :=
  let v := x.cell c
  if x.idle || (s.chan c).active.pathCode ≠ 1 then []
  else ((s.cycleSet x c).acts (bit v.sym 0) v.drive).map fun a => (s.corrected c false start a.1, a.2)

/-- A channel after its drive actions, with the instants at which its output changed. -/
def Chan.acted (c : Chan) (acts : List (Nat × EdgeAct)) : Chan × List Nat :=
  acts.foldl (fun p a => Chan.edge p a.1 a.2) (c, [])

/-- The first of some drive actions that changes the channel's output, and the comparator state after it. An action that drives the
level already present makes no transition (R62), and near it a strobe is not free: it is no drive edge here (DESIGN CHOICE, log entry
138). -/
def Chan.firstEdge (c : Chan) (acts : List (Nat × EdgeAct)) : Option (Nat × Cmp) :=
  firstSome (fun a => let q := Chan.edge (c, []) a.1 a.2; if q.2.isEmpty then none else some (a.1, q.1.cmp)) acts

/-- One channel through one cycle: the driver's actions, then the strobes. `nxt` gives its drive actions in the next cycle. -/
def State.chanCycle (s : State) (start : Nat) (x : Cycle) (nxt : Nat → List (Nat × EdgeAct)) (c : Nat) :
    Chan × List Nat × List Res :=
  let t := s.cycleSet x c
  let v := x.cell c
  let acts := s.chanActs start x c
  let p := (s.chan c).acted acts
  let near := p.1.firstEdge (nxt c)
  let opens (u : Nat) : Nat := t.stbOpen.toNat + u * t.period.toNat / t.m
  let res := (List.range t.m).filterMap fun u =>
    (v.expect u).map fun e =>
      let win := t.m = 1 && t.stb
      let close := if win then t.stbClose.toNat else opens u
      { c := c
        u := u
        at_ := x.start + close
        raw := s.corrected c true start close
        fail := p.1.strobeFails near win e (s.corrected c true start (opens u)) (s.corrected c true start close)
          (s.freeCount + 8 * c + u)
        mask := bit v.sym 7 }
  let tap (strobe : Bool) (old : BitVec 7) : BitVec 7 :=
    ((t.usedOf (bit v.sym 0) strobe).map (s.tapOf c strobe start)).getLastD old
  ({ p.1 with
    useD := s.usedEdges start x c false ++ p.1.useD.take usedKeep
    useS := s.usedEdges start x c true ++ p.1.useS.take usedKeep
    tapD := tap false p.1.tapD
    tapS := tap true p.1.tapS }, p.2, res)

/-- Play the cycle on every channel of the crew (R62 to R65, R75, R193): the results. -/
def State.playChans (s : State) (r : Engine) (start : Nat) (x : Cycle) (nxt : Nat → List (Nat × EdgeAct)) : State × List Res :=
  if x.idle then (s, [])
  else
    r.chans.foldl (fun (p : State × List Res) c =>
      let (ch, at_, res) := s.chanCycle start x nxt c
      ((p.1.moveChan c ch).updLane (c / 16) fun l => l.countEdges at_, p.2 ++ res)) (s, [])

/-- The unmasked failures of a cycle. -/
def failsOf (l : List Res) : List Res := l.filter fun x => x.fail && !x.mask

/-- A failing strobe in CK_C cycle k: one that a clear already covers counts no more (R139). -/
def Chan.countFail (c : Chan) (k : Nat) : Chan :=
  if k < c.failClr then c
  else { c with failCnt := satInc c.failCnt, failRun := if c.failRun.1 = k then (k, c.failRun.2 + 1) else (k, 1) }

/-- A clear in CK_C cycle k leaves the failing strobes of that cycle (R139). -/
def Chan.clearFails (c : Chan) (k : Nat) : Chan :=
  { c with failCnt := if c.failRun.1 = k then BitVec.ofNat 32 c.failRun.2 else 0, failClr := k }

/-- Fail counters (R138, R139): one count per failing UI. -/
def State.countFails (s : State) (l : List Res) : State :=
  (failsOf l).foldl (fun s x => s.updChan x.c fun c => c.countFail (x.raw / 1024)) s

/-- The instant of the cycle's last strobe, its start where it has none (R160; log entry 32). -/
def lastStrobe (l : List Res) (start : Nat) : Nat := l.foldl (fun m x => max m x.at_) start

/-- An event counted as out of window (R160). -/
def State.outOfWindow (s : State) (e at_ : Nat) : State :=
  let s := s.updEng e fun r => { r with oow := satInc r.oow }
  s.updHeat e fun h => { h with oowAt := at_ :: h.oowAt, fcsatEver := true }

/-- CH_MASK and UI_MASK of a failing crew-cycle (R152). -/
def chMask (l : List Res) : ChanMask := maskOf 256 (l.map (·.c))
def uiMask (l : List Res) : Byte := maskOf 8 (l.map (·.u))

/-- A FIRSTN record (R152). -/
def firstnRecord (e : Nat) (h : Heat) (p : Play) (x : Cycle) (mux : BitVec 2) (g : Tag) (l : List Res) (k : Nat) :
    BitVec 512 :=
  placeN 512 0 (h.cycle % 2 ^ 48) ||| placeN 512 48 p.addr ||| place 512 60 mux ||| place 512 64 (uiMask l) |||
  place 512 72 g.x ||| place 512 96 g.y ||| place 512 120 g.z ||| place 512 128 (chMask l) ||| placeN 512 384 k |||
  placeN 512 416 e ||| placeN 512 424 x.tset

/-- Capture of a failing crew-cycle in FIRSTN (R151). -/
def State.captFirstn (s : State) (e : Nat) (h : Heat) (p : Play) (x : Cycle) (mux : BitVec 2) (g : Tag) (l : List Res)
    (at_ : Nat) : State :=
  let i := (s.eng e).window h.captBind
  let k := (s.region i).recIdx
  if h.captLeft = 0 || (s.region i).size < 64 * k + 64 then s.outOfWindow e at_
  else
    let s := s.pushCapture e i (.bytes (64 * k) (bytesLE 64 (firstnRecord e h p x mux g l k).toNat))
    let s := s.updRegion i fun q => { q with recIdx := k + 1 }
    let s := s.updHeat e fun h => { h with captLeft := h.captLeft - 1 }
    s.updEng e fun r => { r with logcnt := BitVec.ofNat 32 (k + 1) }

/-- DBI of channel c (R153). -/
def Geom.dbiOf (g : Geom) (c : Nat) : Nat := fldN (SMap.get (fun _ => BitVec.allOnes 32) g.dbi (c / 4) : Word32) (8 * (c % 4)) 8

/-- B and USTRIDE (R153). -/
def Geom.b (g : Geom) : Nat := fldN g.cfg 0 4
def Geom.ustride (g : Geom) : Nat := fldN g.cfg 8 8

/-- Source, LSB and WIDTH of address field i (R153). -/
def Geom.src (g : Geom) (i : Nat) : Nat := fldN g.fields (16 * i) 2
def Geom.lsb (g : Geom) (i : Nat) : Nat := fldN g.fields (16 * i + 2) 6
def Geom.width (g : Geom) (i : Nat) : Nat := fldN g.fields (16 * i + 8) 5

/-- A source of the tuple as a number. -/
def Tag.src (t : Tag) (i : Nat) : Nat :=
  match i with
  | 0 => t.x.toNat
  | 1 => t.y.toNat
  | 2 => t.z.toNat
  | _ => t.sa.toNat

/-- A: the fields concatenated, F0 least significant (R153). -/
def Geom.addr (g : Geom) (t : Tag) : Nat :=
  ((List.range 4).foldl (fun (a : Nat × Nat) i =>
    (a.1 + (t.src (g.src i) / 2 ^ g.lsb i) % 2 ^ g.width i * 2 ^ a.2, a.2 + g.width i)) (0, 0)).1

/-- The fail bits of a crew-cycle (R154): DBI 255 is excluded. -/
def Geom.bits (g : Geom) (l : List Res) : List Nat :=
  l.filterMap fun x => if g.dbiOf x.c = 255 then none else some (g.dbiOf x.c + x.u * g.ustride)

/-- WBASE of the window bound at b under a declaration (R144). -/
def wbaseOf (d : Decl) (b : Nat) : Nat :=
  (((declEntries d).find? fun e => declMode e = 2 && declBind e = b).map fun e => (declWbase e).toNat).getD 0

/-- Capture of a failing crew-cycle in BITMAP (R154, R155): bits past the data-bit width are dropped. -/
def State.captBitmap (s : State) (e : Nat) (h : Heat) (t : Tag) (l : List Res) (at_ : Nat) : State :=
  let i := (s.eng e).window h.captBind
  let g := s.geom h.captImm.toNat
  let bits := g.bits l
  let keep := bits.filter fun b => decide (b < 2 ^ g.b)
  let a := g.addr t * 2 ^ g.b
  let base := wbaseOf h.decl h.captBind
  let ok := decide (base ≤ a / 256) && decide (a / 256 - base < (s.region i).size / 32)
  if bits.isEmpty then s
  else
    let s := if ok && !keep.isEmpty then
      s.pushCapture e i (.bitmap (a / 256 - base) (maskOf 256 (keep.map fun b => a % 256 + b)) g) else s
    if ok && keep.length = bits.length then s else s.outOfWindow e at_

/-- The bytes of a RAW row (R158): one per channel of the crew, ascending. -/
def rawRow (chans : List Nat) (l : List Res) : List Byte :=
  chans.map fun c => maskOf 8 ((l.filter fun x => x.c = c && x.fail).map (·.u))

/-- The present RAW window takes a row (R158). -/
def State.captRaw (s : State) (e : Nat) (w : RawWin) (row : List Byte) (at_ : Nat) : State :=
  let o := w.base + 64 + w.rows * row.length
  let fits := w.headerFits && decide (o + row.length ≤ (s.region w.region).size)
  let s := if fits then s.pushCapture e w.region (.bytes o row) else s.outOfWindow e at_
  let lost := w.lost || !fits
  let done := (w.rows + 1) % 64 = 0
  s.updHeat e fun h => { h with raw := some { w with
    start := if w.rows = 0 then h.startAt h.next / 512 else w.start
    rows := w.rows + 1
    lost := lost && !done
    written := if done && !lost then w.written + 1 else w.written } }

/-- What capture does with a cycle (R138, R140, R158). -/
def State.captureCycle (s : State) (e : Nat) (h : Heat) (p : Play) (x : Cycle) (mux : BitVec 2) (g : Tag) (l : List Res) :
    State :=
  let at_ := lastStrobe l x.start
  let f := failsOf l
  match (s.eng e).captMode.toNat with
  | 1 => if f.isEmpty then s else s.captFirstn e h p x mux g f at_
  | 2 => if f.isEmpty then s else s.captBitmap e h g f at_
  | 3 =>
    match h.raw with
    | some w => if w.rows < 64 * w.granules then s.captRaw e w (rawRow (s.eng e).chans l) at_ else s
    | none => s
  | _ => s

/-- What the heat's compares leave in it (R92, R96). -/
def Heat.takeResults (h : Heat) (p : Play) (l : List Res) : Heat :=
  let u := l.filter fun x => !x.mask
  let f := (failsOf l).map (·.at_)
  let h := { h with fails := f ++ h.fails }
  if p.kind = .matchK then
    match matchKind p.entry with
    | some true => { h with occ := match h.occ, f with
        | some t, _ => some t
        | none, a :: r => some (r.foldl min a)
        | none, [] => none }
    | some false => { h with
        iterStrobe := h.iterStrobe || !u.isEmpty
        iterFail := h.iterFail || !f.isEmpty
        iterLast := u.foldl (fun m x => max m x.at_) h.iterLast }
    | none => h
  else h

/-- The tuple that tags the present cycle (R136): `tags` holds the tuples of the last cycles, newest first. -/
def tagNow (l : List Tag) (t : Tag) (dly : Nat) : List Tag × Tag :=
  let n := (t :: l).take (dly + 1)
  (n, n.getLastD t)

/-- Granules in one pass of an entry (R86, R98, R121). -/
def Play.passLen (p : Play) : Nat :=
  match p.kind with
  | .idle | .wait | .bar => (eImm p.entry).toNat
  | _ => eLen p.entry

/-- The end of the cycle (R53, R83): the next start, the counts, and the granule boundary after 64 cycles. At the end of an
iteration of a MATCH on PASS, the first in which every compare passed makes it occur (R96). -/
def Heat.endCycle (h : Heat) (p : Play) (period : Nat) (tags : List Tag) (dropped : Option (Nat × Nat)) : Heat :=
  let next := h.next + period
  let last := p.cyc + 1 = 64
  let iter := last && p.kind = .matchK && decide (p.passLen ≤ p.gran + 1) && matchKind p.entry = some false
  { h with
    next := next
    cycle := h.cycle + 1
    tags := tags
    play := some { p with cyc := p.cyc + 1 }
    phase := if last then .boundary else .cycling
    begun := !last
    fetched := if last then h.fetched.filter fun f => some (f.region, f.gran) ≠ dropped else h.fetched
    occ := if iter && h.occ.isNone && !h.iterFail then some (if h.iterStrobe then h.iterLast else next) else h.occ }

/-- The granule a segment entry is about to play. -/
def State.granuleOf (s : State) (r : Engine) (p : Play) : Option (Nat × Nat) :=
  if p.kind = .play || p.kind = .playn || p.kind = .matchK then
    (s.segRegion r (eBind p.entry)).map fun i => (i, eBase p.entry + p.gran)
  else none

/-- The barrier is visible at S (R92, R99). -/
def Heat.barSeen (h : Heat) (smp : Int) : Bool :=
  match h.barDone with
  | some t => decide ((t : Int) ≤ h.rtAt smp)
  | none => false

/-- One cycle further in the entry in play. -/
def Play.onward (p : Play) : Play := if p.cyc + 1 = 64 then { p with cyc := 0, gran := p.gran + 1 } else { p with cyc := p.cyc + 1 }

/-- The APG after a cycle of the entry in play (R129). -/
def Engine.afterCycle (r : Engine) (p : Play) : Engine :=
  if p.kind = .apgrun then { r with regs := { r.regs with apg := r.regs.apg.step (r.microAt r.regs.apg.upc.toNat) } } else r

/-- The strobe instants of a cycle's unmasked compares, in played time (R91). -/
def State.comparesOf (s : State) (r : Engine) (x : Cycle) : List Nat :=
  if x.idle then []
  else r.chans.flatMap fun c =>
    let t := s.cycleSet x c
    (List.range t.m).filterMap fun u =>
      if ((x.cell c).expect u).isSome && !bit (x.cell c).sym 7 then
        some (x.start + (if t.m = 1 && t.stb then t.stbClose.toNat else t.stbOpen.toNat + u * t.period.toNat / t.m))
      else none

/-- The engine, heat and entry n cycles on, and the compares of those cycles: the rows have been fetched ahead (R95). -/
def State.lookOn (s : State) : Nat → Engine → Heat → Play → Engine × Heat × Play × List Nat
  | 0, r, h, p => (r, h, p, [])
  | n + 1, r, h, p =>
    let x := s.nextCycle r h p
    let q := s.lookOn n (r.afterCycle p) { h with next := h.next + (s.crewSet r x).period.toNat } p.onward
    (q.1, q.2.1, q.2.2.1, s.comparesOf r x ++ q.2.2.2)

/-- The lead values that a link has read, with their places (R93). -/
def outLeads (o : LinkOut) : List (Nat × Bool) :=
  let fx := match o with
    | .go w => w.fx
    | .play w _ _ _ => w.fx
    | .halt w _ _ => w.fx
    | .fault w _ _ => w.fx
  fx.filterMap fun x => match x with
    | .leadCond k v => some (k, v)
    | _ => none

/-- C after the condition of a MATCH or WAIT has been read at S (R92, R97). -/
def consAfter (x : Entry) (keeps : Bool) (smp : Int) (cons : Option Nat) : Option Nat :=
  if (eCond x = 1 || eCond x = 2) && !keeps && decide (0 ≤ smp) then some smp.toNat else cons

/-- What will happen at a decision point, as far as it is known (R95): r, h and p are the engine, heat and entry as they will
stand there, g granules of the entry's pass having been played. The lead values read there, and how execution goes on; an
entry that goes on playing answers itself. None: a value of another member is still missing. -/
def State.outcomeAt (s : State) (e : Nat) (r : Engine) (h : Heat) (p : Play) (g : Nat) : List (Nat × Bool) × Option LinkOut :=
  let h := { h with play := some p }
  let s := s.setEng e { r with heat := some h }
  let smp := r.sample h.next
  let x := p.entry
  let stay := LinkOut.play (linkFrom r.regs h.cons p.addr) p.kind p.addr x
  let own (v : Bool) : List (Nat × Bool) := if condLead x then [(0, v)] else []
  let link (l : List (Nat × Bool)) (regs : EngRegs) (cons : Option Nat) (pc : Nat) : List (Nat × Bool) × Option LinkOut :=
    let o := s.runLink e smp 18 { linkFrom regs cons pc with leads := l.length }
    (l ++ outLeads o, some o)
  match p.kind with
  | .matchK =>
    match s.matchSeen r h p smp with
    | none => ([], none)
    | some ok =>
      if ok || decide ((eImm x).toNat ≤ p.pass) then
        link (own ok) { r.regs with matched := ok } (consAfter x false smp h.cons) (p.addr + 1)
      else (own ok, some stay)
  | .wait =>
    if g < 8 then ([], some stay)
    else
      match s.condRaw r h r.regs h.cons smp 0 x with
      | none => ([], none)
      | some v =>
        let cons := consAfter x (bit x 106) smp h.cons
        if condInv x v then link (own v) r.regs cons (p.addr + 1)
        else if p.passLen ≤ g then link (own v) r.regs cons (eTgt x)
        else (own v, some stay)
  | .bar =>
    if 8 ≤ g && h.barSeen smp then link [] r.regs h.cons (p.addr + 1)
    else if p.passLen ≤ g then link [] r.regs h.cons (eTgt x)
    else ([], some stay)
  | _ => link [] r.regs h.cons (p.addr + 1)

/-- The cycle after the one the crew is about to play, and the state whose levels place it: none where the crew will not go
straight on (R83, R105). -/
def State.cycleAfter (s : State) (e : Nat) (r : Engine) (h : Heat) (p : Play) : Option (State × Cycle) :=
  let (r, h, p, _) := s.lookOn 1 r h p
  let h := { h with cycle := h.cycle + 1, play := some p }
  if p.cyc ≠ 0 then some (s, s.nextCycle r h p)
  else if h.holdDue r.latency || h.abortDue r.latency then none
  else
    let t := (s.stepLevels r (s.rawOf (h.startAt h.next))).applyPendTsets e h.tsetDue
    if p.gran < p.passLen && p.kind ≠ .wait && p.kind ≠ .bar then some (t, s.nextCycle r h p)
    else if p.kind = .playn && decide (p.pass + 1 < (eImm p.entry).toNat) then some (t, s.nextCycle r h { p with gran := 0 })
    else
      match (s.outcomeAt e r h { p with pass := p.pass + 1 } p.gran).2 with
      | some (.play w k a x) =>
        let regs := if k = .apgrun then { w.regs with apg := { w.regs.apg with upc := BitVec.ofNat 10 (eTgt x) } } else w.regs
        some (t, s.nextCycle { r with regs := regs } h ⟨k, a, x, h.next, 0, 0, 0⟩)
      | _ => none

/-- The drive actions of each channel in the cycle after the present one, where a loopback strobe may lie near them (R372). -/
def State.actsAfter (s : State) (e : Nat) (r : Engine) (h : Heat) (p : Play) : Nat → List (Nat × EdgeAct) :=
  if r.chans.any fun c => (s.chan c).looped then
    match s.cycleAfter e r h p with
    | some (t, x) => fun c => t.chanActs (h.startAt x.start) x c
    | none => fun _ => []
  else fun _ => []

/-- Whether the pass in play ends in a decision (R83, R86). -/
def Play.lastPass (p : Play) : Bool := p.kind ≠ .playn || decide ((eImm p.entry).toNat ≤ p.pass + 1)

/-- The decision points within eight granules, with whether a compare of the entry follows their S: a granule is at least 64
ticks, so that every S within 384 ticks of its D is seen (R92, R98; log entry 33). -/
def State.decisionsAhead (s : State) (r : Engine) (h : Heat) (p : Play) : List (Nat × Bool) :=
  match p.kind with
  | .wait | .bar =>
    let n := 64 * (s.crewSet r (s.idleCycle r h)).period.toNat
    ((List.range 9).filter fun i => decide (8 ≤ p.gran + 1 + i) && decide (p.gran + 1 + i ≤ p.passLen)).map fun i =>
      (h.next + n * (i + 1), false)
  | _ =>
    if p.lastPass && decide (p.passLen ≤ p.gran + 8) then
      let q := s.lookOn (64 * (p.passLen - p.gran)) r h p
      [(q.2.1.next, q.2.2.2.any fun t => decide (r.sample q.2.1.next < (t : Int)))]
    else []

/-- Before a granule a coupled member looks ahead to the decisions it will need values for (R263). -/
def State.lookAhead (s : State) (e : Nat) (r : Engine) (h : Heat) (p : Play) : State :=
  if r.coupled && p.cyc = 0 then s.updHeat e fun x => { x with ends := s.decisionsAhead r h p } else s

/-- A coupled member's summary for the decision at D, whose S has been played (R92, R93, R263). A WAIT on FAIL or PASS without
KEEP has consumed up to the S of its decision before. At the end of a MATCH iteration a second summary for the same S follows:
on PASS the first says whether the iteration before has failed, and the second whether the present one has, and whether it has
compared; on another condition the second's FCSAT is that at the start of the MATCH (DEDUCED, log entry 28). -/
def State.sendSummary (s : State) (e d : Nat) (later : Bool) : State :=
  let r := s.eng e
  match r.heat with
  | none => s
  | some h =>
    match h.play with
    | none => s
    | some p =>
      let smp := r.sample d
      let s := s.updHeat e fun h => { h with sent := some d }
      if smp < 0 then s
      else
        let cons := match h.sent with
          | some d' => if p.kind = .wait && decide (p.start < d') then consAfter p.entry (bit p.entry 106) (r.sample d') h.cons
            else h.cons
          | none => h.cons
        let mk := if p.kind = .matchK then matchKind p.entry else none
        let fail := match mk with
          | some true => occSeen h.occ smp
          | some false => h.prevFail
          | none => failIn h.fails cons smp
        let s := s.sendCrew r 0 (fail.toNat + 2 * (oowBy h.oowAt smp).toNat) (h.tickAt smp)
        if p.kind ≠ .matchK then s
        else
          let pass := mk = some false
          s.sendCrew r 0 ((h.curBad smp later).toNat + 2 * (if pass then h.iterStrobe else oowBy h.oowAt p.start).toNat) (h.tickAt smp)

/-- A member announces a fault that its link will meet at regatta tick t, once (R101, R102). A missing value is no fault yet. -/
def State.announce (s : State) (e code t : Nat) : State :=
  if code = 0x12 || ((s.eng e).heat.any fun h => h.annFault) then s
  else (s.sendCrew (s.eng e) 5 code t).updHeat e fun h => { h with annFault := true }

/-- Ahead of cycle 0 of a coupled heat its first link is foreseen once its S has come: the lead sends the values it reads, and a
fault it meets is announced for the launch tick (R93, R101, R102, R263). -/
def State.foreseeFirst (s : State) (e : Nat) : State :=
  let r := s.eng e
  match r.heat with
  | none => s
  | some h =>
    match h.launchAt with
    | none => s
    | some t =>
      if !r.coupled || h.phase ≠ .waiting then s
      else
        let h' := { h with bases := [(0, t)] }
        let smp := r.sample 0
        if (s.rnow : Int) < h'.rtAt smp then s
        else
          let o := (s.setEng e { r with heat := some h' }).runLink e smp 18 (linkFrom r.regs none h.start)
          let s := (outLeads o).foldl (fun s l => s.sendLeadAt e (h'.tickAt smp) l.1 l.2) s
          match o with
          | .fault _ code _ => s.announce e code (t / 512)
          | _ => s

/-- Ahead of the decision at D the lead sends the values it reads there, and a member announces a fault that its link meets, so
that every member faults at D (R95, R101, R102, R263). -/
def State.runAhead (s : State) (e d : Nat) (later : Bool) : State :=
  let r := s.eng e
  match r.heat with
  | none => s
  | some h =>
    match h.play with
    | none => s
    | some p =>
      let (r', h', _, _) := if p.kind = .apgrun then s.lookOn (64 * (p.passLen - p.gran) - p.cyc) r h p else (r, h, p, [])
      let g := if p.kind = .wait || p.kind = .bar then
          (d - p.start) / (64 * (s.crewSet r (s.idleCycle r h)).period.toNat) else p.passLen
      let (ls, o) := s.outcomeAt e r' { h' with next := d, iterFail := h.iterFail || later } { p with pass := p.pass + 1 } g
      let s := ls.foldl (fun s l => s.sendLead e (r.sample d) l.1 l.2) s
      match o with
      | some (.fault _ code _) => s.announce e code (h.tickAt d)
      | _ => s

/-- The decisions whose S has been played and whose summary has gone out, but that are still to come. -/
def Heat.pendingEnds (h : Heat) : List (Nat × Bool) :=
  h.ends.filter fun d => decide (h.next ≤ d.1) && (match h.sent with | some t => decide (d.1 ≤ t) | none => false)

/-- After a cycle a coupled member sends the summaries of the decisions whose S it has now played (R263). -/
def State.sendSummaries (s : State) (e : Nat) : State :=
  let r := s.eng e
  match r.heat with
  | none => s
  | some h =>
    if !r.coupled then s
    else
      (h.ends.filter fun d => decide (r.sample d.1 ≤ (h.next : Int)) &&
        (match h.sent with | some t => decide (t < d.1) | none => true)).foldl
        (fun s d => (s.sendSummary e d.1 d.2).runAhead e d.1 d.2) s

/-- A value of another member has come: what can now be foreseen is sent (R263). -/
def State.foreseeAgain (s : State) (e : Nat) : State :=
  match (s.eng e).heat with
  | some h => if (s.eng e).coupled then (h.pendingEnds.foldl (fun s d => s.runAhead e d.1 d.2) s).foreseeFirst e else s
  | none => s

/-- Play one cycle x of entry p. -/
def State.playCycle (s : State) (e : Nat) (r : Engine) (h : Heat) (p : Play) (x : Cycle) : State :=
  let nxt := s.actsAfter e r h p
  let s := s.lookAhead e r h p
  let t := s.crewSet r x
  let (tags, tag) := tagNow h.tags (r.tagOf r.regs.apg) (fldN r.apgCfg 0 8)
  let (s, res) := s.playChans r (h.startAt x.start) x nxt
  let s := s.countFails res
  let s := s.captureCycle e h p x t.mux tag res
  let s := if x.idle then s else { s with freeCount := s.freeCount + 2048 }
  let s := s.updEng e fun r => { r.afterCycle p with
    cycles := r.cycles + 1
    tsetMismatch := satAdd r.tsetMismatch x.diff
    apgPast := (r.regs.apg :: r.apgPast).take apgKeep }
  let s := s.updHeat e fun h => (h.takeResults p res).endCycle p t.period.toNat tags (s.granuleOf r p)
  s.sendSummaries e

/-- The cycle has been played to its end on every path: its last edge, moved by A and K, has passed (R53, R72). The cycle is one
step, and is played with the settings in force at its end: a commit inside it (R43) acts on all of its edges and strobes (DESIGN
CHOICE, log entry 139). -/
def State.cycleOver (s : State) (r : Engine) (h : Heat) (x : Cycle) : Bool :=
  decide (s.rawOf (h.startAt x.start + (s.crewSet r x).period.toNat) + 16 ≤ (s.now : Int) * 512)

/-- Granule g of region i is fetched for the heat of engine e, whole (R95, R123). -/
def State.fetchGranule (s : State) (e i g : Nat) (ue : Bool) : State :=
  let (d, s) := s.seeGranule i g
  s.updHeat e fun h => { h with fetched := ⟨i, g, ue, d⟩ :: (h.fetched.filter fun f => !(f.region = i && f.gran = g)) }

/-- The granules that must have been fetched by now and for which no SEGMENT_FETCH has come are fetched (R95): the one to be played
and, in a coupled crew, those it looks ahead to. -/
def State.fetchDue (s : State) (e : Nat) : State :=
  let r := s.eng e
  match r.heat with
  | none => s
  | some h =>
    match h.play with
    | none => s
    | some p =>
      match s.granuleOf r p with
      | none => s
      | some (i, g) =>
        ((List.range (if r.coupled then min 9 (p.passLen - p.gran) else 1)).filter fun j =>
          !(h.fetched.any fun f => f.region = i && f.gran = g + j)).foldl (fun s j => s.fetchGranule e i (g + j) false) s

/-- What the crew of channel c is playing: the engine, its heat and entry, and the cycle in progress. -/
def State.cycleNow (s : State) (c : Nat) : Option (Nat × Engine × Heat × Play × Cycle) :=
  match s.crewOf c with
  | none => none
  | some e =>
    let r := s.eng e
    match r.heat with
    | none => none
    | some h =>
      match h.play with
      | some p => if r.st = .running && h.phase = .cycling && !s.blocked r h then some (e, r, h, p, s.nextCycle r h p) else none
      | none => none

/-- The instants at which channel c's output changes in the cycle in progress and in the one after it (R75). -/
def State.edgesAhead (s : State) (c : Nat) : List Nat :=
  match s.cycleNow c with
  | none => []
  | some (e, r, h, p, x) =>
    let a := (s.chan c).acted (s.chanActs (h.startAt x.start) x c)
    match s.cycleAfter e r h p with
    | some (t, y) => a.2 ++ (a.1.acted (t.chanActs (h.startAt y.start) y c)).2
    | none => a.2

/-- The heat of the RUNNING crew that holds channel c. -/
def State.runningHeat (s : State) (c : Nat) : Option Heat :=
  match s.crewOf c with
  | some e => if (s.eng e).st = .running then (s.eng e).heat else none
  | none => none

/-- The real instant at which the shadow has ended (R224): a crew that stopped leaves 64 ticks. -/
def State.shadowOver (s : State) (k : Nat) : Option Nat :=
  let l := s.calLane k
  match l.shadowEnd, l.shadowFrom with
  | some t, _ => some t
  | none, some f => if (s.runningHeat (16 * k + l.item.toNat)).isNone then some (f + 64 * 512) else none
  | none, none => none

/-- Programmed instants as channel j of lane k and as the spare place them (R225). -/
def State.onBoth (s : State) (k j : Nat) (l : List Nat) : List Int :=
  (l.map fun e => (e : Int) + s.pathOffset k j) ++ l.map fun e => (e : Int) + s.pathOffset k 16

/-- The used edges of channel j's drive or strobe path about a handover, on both paths: those of the last cycles, of the cycle in
progress and of the one after it (R225). -/
def State.handoverEdges (s : State) (k j : Nat) (strobe : Bool) : List Int :=
  let c := 16 * k + j
  s.onBoth k j (if strobe then (s.chan c).useS else (s.chan c).useD) ++
  match s.cycleNow c with
  | none => []
  | some (e, r, h, p, x) =>
    s.onBoth k j (s.usedEdges (h.startAt x.start) x c strobe) ++
    match s.cycleAfter e r h p with
    | some (t, y) => t.onBoth k j (t.usedEdges (h.startAt y.start) y c strobe)
    | none => []

/-- The channel and the spare drive the same level at regatta instant fu (R225): the one that does not serve the pin follows it by
the difference of their offsets. -/
def State.sameLevel (s : State) (k j fu : Nat) : Bool :=
  let c := match s.cycleNow (16 * k + j) with
    | some (_, _, h, _, x) => ((s.chan (16 * k + j)).acted (s.chanActs (h.startAt x.start) x (16 * k + j))).1
    | none => s.chan (16 * k + j)
  let d := s.pathOffset k 16 - s.pathOffset k j
  let t := s.rawOf fu
  let d := if (s.calLane k).driveSw then -d else d
  histAt Drive.off t c.driveHist = histAt Drive.off (t - d) c.driveHist

/-- The first switch instant of a path at or after regatta instant t (R225): 32 fu into a UI, 24 fu from every edge of `busy`, and
at equal levels. An edge rules out one such instant at most. -/
def firstSwitch (busy : List Int) (same : Nat → Bool) (t : Nat) : Option Nat :=
  let a := t + (96 - t % 64) % 64
  ((List.range (busy.length + 1)).map fun i => a + 64 * i).find? fun x =>
    same x && busy.all fun e => decide (e + 24 ≤ (x : Int)) || decide ((x : Int) + 24 ≤ e)

/-- The first switch instant of a path of channel j after its shadow has ended at t, if it lies in the cycle in progress: no earlier
cycle had one, since a crew plays no cycle with a switch instant that has not been taken. Without a running crew no edge follows the
last one placed (R224, R225). -/
def State.switchAt (s : State) (k j : Nat) (strobe : Bool) (t : Nat) : Option Nat :=
  let c := s.chan (16 * k + j)
  if (s.runningHeat (16 * k + j)).isNone then
    firstSwitch (s.handoverEdges k j strobe) (fun _ => true) (max t (max (c.useD.foldl max 0) (c.useS.foldl max 0)))
  else
    match s.cycleNow (16 * k + j) with
    | none => none
    | some (_, r, h, _, x) =>
      let a := h.startAt x.start
      match firstSwitch (s.handoverEdges k j strobe) (s.sameLevel k j) (max t a) with
      | some u => if u < a + (s.crewSet r x).period.toNat then some u else none
      | none => none

/-- The path still has to switch in the handover's present step (R224 steps 3 and 6). -/
def CalLane.toSwitch (l : CalLane) (strobe : Bool) : Bool :=
  let on := if strobe then l.strobeSw else l.driveSw
  (l.phase = 2 && !on) || (l.phase = 4 && on)

/-- A path of channel c is to switch in the cycle in progress (R224). -/
def State.switchDue (s : State) (c : Nat) : Bool :=
  let l := s.calLane (c / 16)
  l.item.toNat = c % 16 &&
  match s.shadowOver (c / 16) with
  | some t => [false, true].any fun b => l.toSwitch b && (s.switchAt (c / 16) (c % 16) b t).isSome
  | none => false

/-- TESTER_CYCLE (R53): the crew plays its next cycle once its time has passed, and the handover switches of that cycle have been made
(R224). A granule that could not be read faults the engine at the boundary before it (R101). -/
def execTesterCycle (e : EngineId) (s : State) : Host.Outcome State Fault Refusal :=
  .next (inRun s fun s =>
    let s := if (s.eng e.val).st = .running then (s.fetchDue e.val).startGranule e.val else s
    let r := s.eng e.val
    match r.heat with
    | none => s
    | some h =>
      match h.play with
      | none => s
      | some p =>
        if r.st ≠ .running || h.phase ≠ .cycling || s.blocked r h || r.chans.any s.switchDue then s
        else if p.cyc = 0 && (match s.granuleOf r p with | some (i, g) => h.fetchBad i g | none => false) then
          s.engineFault e.val 0x10 p.addr (h.tickAt h.next)
        else
          let x := s.nextCycle r h p
          if s.cycleOver r h x then s.playCycle e.val r h p x else s)

/-- The RAW window has played its G granules (R140, R158). -/
def Heat.rawDone (h : Heat) : Bool :=
  match h.raw with
  | some w => decide (64 * w.granules ≤ w.rows)
  | none => false

/-- A RAW window that has played its length ends, and the crew returns to COUNT (R140, R158). -/
def State.rawReturn (s : State) (e : Nat) : State :=
  match (s.eng e).heat with
  | some h => if h.rawDone then (s.endRaw e).updEng e fun r => { r with captMode := 0 } else s
  | none => s

/-- WAIT or BAR at the end of its g-th granule (R98): at the 8th and every later one. -/
def State.waitBoundary (s : State) (e : Nat) (r : Engine) (h : Heat) (p : Play) (g : Nat) : State :=
  let smp := r.sample h.next
  let x := p.entry
  let go := fun (s : State) => s.toDecision e (p.addr + 1) (leadsOf x)
  let stay := fun (s : State) => s.updHeat e fun h => { h with phase := if p.passLen ≤ g then .expired else .cycling }
  if g < 8 then stay s
  else if p.kind = .bar then (if h.barSeen smp then go s else stay s)
  else
    let v := s.condRaw r h r.regs h.cons smp 0 x
    let s := s.sendOwnLead e smp x v
    match v with
    | none => s.peerLack e p.addr
    | some v =>
      let s := s.updHeat e fun h => { h with cons := consAfter x (bit x 106) smp h.cons }
      let s := if eCond x = 8 then s.updEng e fun r => { r with fcsat := v } else s
      if condInv x v then go s else stay s

/-- A spare or channel that shadows the other path of a channel of the crew has shadowed one granule at its boundary (R224). -/
def State.endShadows (s : State) (r : Engine) (t : Nat) : State :=
  (List.range 16).foldl (fun s k =>
    let l := s.calLane k
    match l.shadowFrom, l.shadowEnd with
    | some f, none =>
      if decide (l.carries.toNat < 16) && r.crew.getLsbD (16 * k + l.carries.toNat) && decide (f < t) then
        s.setCalLane k { l with shadowEnd := some t }
      else s
    | _, _ => s) s

/-- GRANULE_BOUNDARY (R76, R96, R98, R121, R140, R224): the entry goes on, iterates or ends, and the next granule, if one is played,
begins with a step of the applied levels. -/
def execGranuleBoundary (e : EngineId) (s : State) : Host.Outcome State Fault Refusal :=
  .next (inRun s fun s =>
    let r := s.eng e.val
    match r.heat with
    | none => s
    | some h =>
      match h.play with
      | none => s
      | some p =>
        if r.st ≠ .running || h.phase ≠ .boundary then s
        else
          let s := (s.endShadows r (h.startAt h.next)).rawReturn e.val
          let g := p.gran + 1
          let ended := p.passLen ≤ g
          let p' : Play := { p with
            cyc := 0
            gran := if ended && (p.kind = .playn || p.kind = .matchK) then 0 else g
            pass := if ended then p.pass + 1 else p.pass }
          let s := s.updHeat e.val fun h => { h with play := some p', phase := .cycling }
          State.startGranule (match p.kind with
          | .wait | .bar => s.waitBoundary e.val (s.eng e.val) h p g
          | .matchK => if ended then s.updHeat e.val fun h => { h with phase := .decision, link := none } else s
          | .playn => if ended && (eImm p.entry).toNat ≤ p'.pass then s.toDecision e.val (p.addr + 1) 0 else s
          | _ => if ended then s.toDecision e.val (p.addr + 1) 0 else s) e.val)

/-- Transitions not yet played that fall in window w of lane k: those of the cycles in progress and of the next ones, whose first edges
can lie before the window's end (R75). -/
def State.edgesInPlay (s : State) (k w : Nat) : Nat :=
  (((List.range 16).flatMap fun j => s.edgesAhead (16 * k + j)).filter fun t => t / 32768 = w).length

/-- ACTIVITY_WINDOW_END (R75, R76): the last whole window of 64 ticks has ended; a channel in no RUNNING crew takes the measured
level. -/
def execActivityWindowEnd (lane : LaneId) (s : State) : Host.Outcome State Fault Refusal :=
  .next (inRun s fun s =>
    let k := lane.val
    if s.now < (s.lane k).actEnd + 64 then s
    else
      let w := s.now / 64 - 1
      let n := min 8192 (SMap.get (fun _ => 0) (s.lane k).actOpen w + s.edgesInPlay k w)
      let lv : BitVec 3 := BitVec.ofNat 3 (measuredLevel n)
      let s := s.updLane k fun l => { l with
        actOpen := l.actOpen.filter fun e => decide (w < e.1)
        actCount := BitVec.ofNat 14 n
        actLevel := lv
        actEnd := 64 * (w + 1)
        actHist := ((w + 1) * 32768, lv) :: l.actHist.take histKeep }
      (List.range 17).foldl (fun s j => if s.inRunning k j then s else s.updAct (17 * k + j) fun a => { a with applied := lv })
        s)

end Sys2Proof.Machine
end

