-- ==== Sys2Proof/Machine/Pattern.lean ====
section
/-! DEFINITION. Tables, microprograms, bindings and vector data (R106, R114, R122 to R124, R131): what may be written while a
heat runs, and the commands that write it. -/

namespace Sys2Proof.Machine

/-- COX_BIND_WRITE (R114). -/
def execCoxBindWrite (e : EngineId) (b : Fin 16) (v : Word32) (s : State) : Host.Outcome State Fault Refusal :=
  .next (whenReady s fun s => s.updEng e.val fun r =>
    if r.active then { r with pdIgnored := true } else { r with bind := SMap.put r.bind b.val v })

/-- PATTERN_CONFIG_WRITE (R124). A write with a reserved code while the engine is RUNNING or HELD is ignored as any other, and sets
IGNORED alone (DESIGN CHOICE, log entry 125). -/
def execPatternConfigWrite (e : EngineId) (q : PatReg) (v : Word32) (s : State) : Host.Outcome State Fault Refusal :=
  .next (whenReady s fun s => s.updEng e.val fun r =>
    if r.active then { r with pdIgnored := true }
    else if !patRegOk q v then { r with pdRefused := true }
    else r.writePat q v)

/-- The value of an entry's test is fixed only at D, or depends on the outside: both outcomes belong to the resolved link
(R90, R95). -/
def condForks (x : Entry) : Bool := condLate x || eCond x = 3 || eCond x = 10

/-- How a link can go on after its next entry (R90, R95, R106). -/
def State.linkForks (s : State) (e : Nat) (w : LinkWork) : List LinkWork :=
  let r := s.eng e
  let x := r.entryAt w.pc
  match r.heat, Opc.of (eOpc x) with
  | some h, some o =>
    if o.playKind.isSome || !(s.entryFaults e r h w x).isEmpty then []
    else
      let w := { w with count := w.count + 1, late := w.late || condLate x, regs := w.regs.note w.pc }
      let outs : List LinkOut :=
        if o = .halt || o = .jif then
          if condForks x then [w.act o w.pc x true, w.act o w.pc x false]
          else
            let w := w.decFirst x
            [w.act o w.pc x (condInv x ((s.condRaw r h w.regs w.cons 0 w.leads x).getD false))]
        else [w.act o w.pc x true]
      outs.filterMap fun o => match o with
        | .go w => some w
        | _ => none
  | _, _ => []

/-- The addresses of a link on every path, its successor PLAY-class entries and taken HALTs included (R106). -/
def State.linkPaths (s : State) (e : Nat) : Nat → LinkWork → List Nat
  | 0, _ => []
  | n + 1, w => if 4096 ≤ w.pc then [] else w.pc :: (s.linkForks e w).flatMap (s.linkPaths e n)

/-- Where the resolved link of a heat begins (R95, R98). -/
def Heat.linkStarts (h : Heat) (r : EngRegs) : List LinkWork :=
  match h.link, h.play with
  | some w, _ => [w]
  | none, some p =>
    linkFrom r h.cons (p.addr + 1) ::
      (if p.kind = .wait || p.kind = .bar then [linkFrom r h.cons (eTgt p.entry)] else [])
  | none, none => [linkFrom r h.cons h.start]

/-- The addresses of the resolved link: those already executed and those still to come. -/
def State.resolvedLink (s : State) (e : Nat) : List Nat :=
  match (s.eng e).heat with
  | some h =>
    ((h.link.map (·.seen)).getD []) ++ (h.linkStarts (s.eng e).regs).flatMap (s.linkPaths e 17)
  | none => []

/-- The current PLAY-class entry. -/
def Engine.currentPlay (r : Engine) : List Nat :=
  match r.heat with
  | some h => match h.play with
    | some p => [p.addr]
    | none => []
  | none => []

/-- The addresses of the active loops (R106). -/
def EngRegs.loopAddrs (r : EngRegs) : List Nat :=
  (r.ctrs.filter fun c => c.2.active).flatMap fun c =>
    (List.range (c.2.top + 1 - c.2.loopAt)).map (c.2.loopAt + ·)

/-- The entry active set of a RUNNING or HELD engine (R106). -/
def State.activeEntries (s : State) (e : Nat) : List Nat :=
  (s.eng e).currentPlay ++ s.resolvedLink e ++ (s.eng e).regs.loopAddrs

/-- Space 0 is the table, 1 the microprogram; their sizes (R277). -/
def spaceSize (space : Byte) : Nat := if space = 0 then 4096 else 1024

/-- The fields of TABLE_LOAD and TABLE_PATCH are well formed (R276, R277). -/
def tableOk (engine space : Byte) (first count : BitVec 16) (data : List Entry) : Bool :=
  engine.toNat < 128 && space.toNat ≤ 1 && 1 ≤ count.toNat && first.toNat + count.toNat ≤ spaceSize space &&
  data.length = count.toNat

/-- Write entries from an address upward. -/
def putEntries (m : SMap Entry) (a : Nat) : List Entry → SMap Entry
  | [] => m
  | x :: r => putEntries (SMap.put m a x) (a + 1) r

/-- The effect of a completed TABLE_LOAD: every other entry of the space becomes the trap entry or zero (R103, R277). -/
def Engine.loadTable (r : Engine) (space : Byte) (first : Nat) (data : List Entry) : Engine :=
  if space = 0 then
    { r with
      table := putEntries [] first data
      tableValid := true
      st := if r.st = .faulted then .faulted else .loaded }
  else { r with micro := putEntries [] first data }

/-- TABLE_LOAD (R103, R106, R131). -/
def execTableLoad (h : Hdr) (engine space : Byte) (first count : BitVec 16) (data : List Entry) (s : State) :
    Host.Outcome State Fault Refusal :=
  .next (queueCmd s h 0x08 [(128, engine.toNat), (136, space.toNat), (144, first.toNat), (160, count.toNat)]
      (tableOk engine space first count data) (engineRec engine) false fun s =>
    let e := engine.toNat
    if (s.eng e).active then s.done h stNotReady
    else if space ≠ 0 && !data.all microOk then s.done h stBadCommand
    else (s.updEng e fun r => r.loadTable space first.toNat data).done h stOk)

/-- The write touches what a RUNNING or HELD engine may not lose (R106, R131). -/
def State.patchActive (s : State) (e : Nat) (space : Byte) (first n : Nat) : Bool :=
  (s.eng e).active &&
  (if space = 0 then (s.activeEntries e).any fun a => decide (first ≤ a) && decide (a < first + n)
   else ((s.eng e).currentPlay ++ s.resolvedLink e).any fun a => eOpc ((s.eng e).entryAt a) = 0x18)

/-- TABLE_PATCH (R106, R131): only the named entries are written. -/
def execTablePatch (h : Hdr) (engine space : Byte) (first count : BitVec 16) (data : List Entry) (s : State) :
    Host.Outcome State Fault Refusal :=
  .next (queueCmd s h 0x09 [(128, engine.toNat), (136, space.toNat), (144, first.toNat), (160, count.toNat)]
      (tableOk engine space first count data) (engineRec engine) false fun s =>
    let e := engine.toNat
    if s.patchActive e space first.toNat count.toNat then s.done h stSegActive
    else if space ≠ 0 && !data.all microOk then s.done h stBadCommand
    else
      (s.updEng e fun r =>
        if space = 0 then { r with table := putEntries r.table first.toNat data }
        else { r with micro := putEntries r.micro first.toNat data }).done h stOk)

/-- Granules first to first + n - 1 of region i belong to the segment active set of engine e (R122). -/
def State.segTouched (s : State) (e i first n : Nat) : Bool :=
  (s.activeEntries e).any fun a =>
    let x := (s.eng e).entryAt a
    match Opc.of (eOpc x) with
    | some o => o.hasSeg && s.segRegion (s.eng e) (eBind x) = some i &&
        decide (eBase x < first + n) && decide (first < eBase x + eLen x)
    | none => false

/-- The granule of whose cycles some have been laid out. -/
def State.granuleBegun (s : State) (r : Engine) (h : Heat) : Option (Nat × Nat) :=
  match h.play with
  | some p => if h.phase = .cycling && (h.begun || decide (0 < p.cyc)) then s.granuleOf r p else none
  | none => none

/-- Fetched granules that have been written are fetched again, but for one that is being played (R123). -/
def State.dropFetched (s : State) (i first n : Nat) : State :=
  { s with engines := s.engines.map fun e => (e.1, { e.2 with heat := e.2.heat.map fun h =>
    { h with fetched := h.fetched.filter fun f =>
        !(f.region = i && decide (first ≤ f.gran) && decide (f.gran < first + n)) || s.granuleBegun e.2 h = some (i, f.gran) } }) }

/-- The granules that a transfer has written, or may have, are fetched anew (R123). -/
def State.refetch (s : State) (x : Xfer) : State :=
  match x with
  | .segment i first n _ => s.dropFetched i first n
  | _ => s

/-- SEGMENT_WRITE (R122, R123). Until its completion is reserved a fetch may still find any of the granules unwritten. -/
def execSegmentWrite (h : Hdr) (handle first count : Word32) (data : List Byte) (s : State) :
    Host.Outcome State Fault Refusal :=
  .next (queueCmd s h 0x0A [(128, handle.toNat), (160, first.toNat), (192, count.toNat)] (1 ≤ count.toNat) anyRec false fun s =>
    let i := handleIdx handle
    let r := s.region i
    let f := first.toNat
    let n := count.toNat
    if !s.liveRegion handle then s.done h stStaleHandle
    else if r.owner ≠ ctxOfQueue h.sq then s.done h stNotOwner
    else if r.kind ≠ .vector || r.size < f + n then s.done h stBadCommand
    else if (s.enginesIn Engine.active).any fun e => s.segTouched e i f n then s.done h stSegActive
    else
      let c := (s.cmdSeq h)
      let s := s.send (.hostRead h.dptr.toNat (n * r.granAll))
      let s := s.updRegion i fun g => { g with late := g.late ++ (List.range n).map fun j => ⟨c, f + j, s.readGranule i (f + j)⟩ }
      let s := (List.range n).foldl (fun s j => s.writeGranule i (f + j) (sliceB data (j * r.granAll) r.granAll)) s
      (s.dropFetched i f n).doneXfer h stOk (n * r.granAll) false (.segment i f n r.gen))

/-- The HBM vector channel of lane k (R19). -/
def vectorChannel (k : Nat) : Nat := if k < 8 then k else k + 8

/-- SEGMENT_FETCH (R95, R101, R123): a granule arrives from the lanes' vector channels. An uncorrectable error is reported (R298,
source 33) with the channel of one of the region's slices, which one a free choice says. -/
def execSegmentFetch (e : EngineId) (bind : Fin 16) (gran : BitVec 24) (ue : Bool) (s : State) :
    Host.Outcome State Fault Refusal :=
  .next (inRun s fun s =>
    let r := s.eng e.val
    match r.heat, s.segRegion r bind.val with
    | some h, some i =>
      if h.phase = .ended || (s.region i).size ≤ gran.toNat then s
      else
        let g := gran.toNat
        let s := s.fetchGranule e.val i g ue
        if ue then
          let l := (s.region i).slices
          let (v, s) := s.takeFree
          let k := (l.getD (v.toNat % l.length) (0, 0)).1
          s.umpEvent 33 (placeN 32 0 (vectorChannel k) ||| place 32 8 gran)
        else s
    | _, _ => s)

end Sys2Proof.Machine
end

