-- ==== Sys2Proof/Machine/Heat.lean ====
section
/-! DEFINITION. Heats as commands (R81, R104, R105, R117, R143 to R149, R278): admission, launch, hold, resume and
completion. -/

namespace Sys2Proof.Machine

/-- The fail partition's capacity (R21, R147). -/
def capTotal : Nat := 31500000000

/-- Sizes of all backed CAPTURE regions, the memory being zeroed, and FC_CAP_FREE (R147). -/
def State.capBacked (s : State) : Nat :=
  s.regions.foldl (fun a r => if r.2.live && r.2.kind = .capture && r.2.win ≠ .unbacked then a + r.2.size else a) 0
def State.capZeroing (s : State) : Nat := s.fc.zeroing.foldl (fun a z => a + z.2) 0
def State.capFree (s : State) : Nat := capTotal - s.capBacked - s.capZeroing

/-- Sum of the ratings of admitted heats (R146). -/
def State.ratingTotal (s : State) : Nat :=
  s.engines.foldl (fun a e => match e.2.heat with | some h => a + h.rating | none => a) 0

/-- The rated period: the shortest PERIOD among the crew's timing sets (R146). -/
def State.ratedPeriod (s : State) (r : Engine) : Nat :=
  let c := r.chans.headD 0
  (List.range 256).foldl (fun m t => min m (s.tset (256 * c + t)).period.toNat) (s.tset (256 * c)).period.toNat

/-- 64 times the slot weight of a declaration for n channels (R146). -/
def declWeight (d : Decl) (n : Nat) : Nat :=
  (declEntries d).foldl (fun m e =>
    max m (if declMode e = 3 then n else if declMode e = 0 then 0 else 64)) 0

/-- The rating of a heat (R146). -/
def State.ratingOf (s : State) (r : Engine) (d : Decl) : Nat :=
  let w := declWeight d (popCount r.crew)
  if w = 0 then 0 else ceilDiv (2 ^ 19 * w) (s.ratedPeriod r)

/-- Limits of R117 and R146. -/
def vecLimit : Nat := 320
def ratingLimit : Nat := 573440

/-- The handles an engine's bindings hold, with their indexes, where not empty (R114). -/
def Engine.bound (r : Engine) : List (Nat × Word32) :=
  (List.range 16).filterMap fun b =>
    let hd : Word32 := SMap.get (fun _ => 0) r.bind b
    if hd = 0 then none else some (b, hd)

/-- The lane charges of a heat (R117): on each lane the largest row width among the bound VECTOR regions. -/
def State.vecCharges (s : State) (r : Engine) : List (Nat × Nat) :=
  let ws := r.bound.flatMap fun b =>
    let g := s.region (handleIdx b.2)
    if g.kind = .vector then g.slices else []
  (List.range 16).filterMap fun k =>
    let m := (ws.filter fun x => x.1 = k).foldl (fun m x => max m x.2) 0
    if m = 0 then none else some (k, m)

/-- A refusal of admission: status and DETAIL: step, regatta ID, lane and binding (R145, R277). -/
def State.refuse (s : State) (step : Nat) (st : Byte) (lane bind : Nat) : Byte × Word32 :=
  (st, placeN 32 0 step ||| place 32 4 s.ez.id ||| placeN 32 10 lane ||| placeN 32 14 bind)

/-- Every channel of the crew has the active path PE with SELFCHK = LOOP (R24). -/
def State.loopbackCrew (s : State) (r : Engine) : Bool :=
  r.chans.all fun c => (s.chan c).active.pathCode = 1 && (s.chan c).active.selfchk = 1

/-- Step 1, with the check of the reference-loss span after it (R24, R145, R189). -/
def State.admitMode (s : State) (r : Engine) : Option (Byte × Word32) :=
  let bad : Option Byte := match s.mode with
    | .dock | .run => if s.dev.holdReq then some stNotReady else none
    | .diag => if s.ea.latched || !s.loopbackCrew r then some stNotReady else none
    | .safe => some stDeviceSafe
    | _ => some stNotReady
  match bad with
  | some st => some (s.refuse 1 st 0 0)
  | none => if s.refSpan then some (s.refuse 1 stRefAbsent 0 0) else none

/-- Step 3 (R144, R145): a declaration entry is well formed. -/
def declEntryOk (e : Word64) : Bool :=
  fldN e 7 9 = 0 && fldN e 48 16 = 0 && (declMode e ≠ 0 || e = 0) && (declMode e = 2 || declWbase e = 0)

/-- The used entries of a declaration. -/
def declUsed (d : Decl) : List Word64 := (declEntries d).filter fun e => declMode e ≠ 0

/-- No element twice. -/
def noDup {α : Type} [BEq α] : List α → Bool
  | [] => true
  | a :: r => !r.contains a && noDup r

/-- The handle bound at b. -/
def Engine.bindAt (r : Engine) (b : Nat) : Word32 := SMap.get (fun _ => 0) r.bind b

/-- Step 3. -/
def admitDecl (r : Engine) (d : Decl) : Bool :=
  (declEntries d).all declEntryOk && noDup ((declUsed d).map declBind) &&
  noDup (((declUsed d).map fun e => r.bindAt (declBind e)).filter fun hd => hd ≠ 0)

/-- Step 4 for one binding (R115). -/
def State.admitBind (s : State) (r : Engine) (ctx : Nat) (b : Nat × Word32) : Option (Byte × Word32) :=
  let g := s.region (handleIdx b.2)
  if !s.liveRegion b.2 then some (s.refuse 4 stStaleHandle 0 b.1)
  else if g.owner ≠ ctx then some (s.refuse 4 stNotOwner 0 b.1)
  else if g.kind = .vector && g.mask ≠ r.crew then some (s.refuse 4 stBadCommand 0 b.1)
  else none

/-- The declared bindings, rising. -/
def declBinds (d : Decl) : List Nat := (List.range 16).filter fun b => (declUsed d).any fun e => declBind e = b

/-- Step 5 for one declared binding. -/
def State.admitKind (s : State) (r : Engine) (b : Nat) : Option (Byte × Word32) :=
  if r.bindAt b ≠ 0 && (s.region (handleIdx (r.bindAt b))).kind = .capture then none else some (s.refuse 5 stBadCommand 0 b)

/-- Step 6 for one declared binding. -/
def State.admitWin (s : State) (r : Engine) (b : Nat) : Option (Byte × Word32) :=
  let g := s.region (handleIdx (r.bindAt b))
  if g.win = .capturing || g.win = .draining || (g.win = .filled && g.drainPending) then some (s.refuse 6 stSegActive 0 b)
  else none

/-- Step 7 (R117). -/
def State.admitVec (s : State) (r : Engine) : Option (Byte × Word32) :=
  ((s.vecCharges r).find? fun c => decide (vecLimit < (s.lane c.1).vecLoad + c.2)).map fun c =>
    s.refuse 7 stRefusedRating c.1 0

/-- Step 8 (R146). -/
def State.admitRating (s : State) (r : Engine) (d : Decl) : Option (Byte × Word32) :=
  if ratingLimit < s.ratingTotal + s.ratingOf r d then some (s.refuse 8 stRefusedRating 0 0) else none

/-- Step 9 (R147). -/
def State.admitCap (s : State) (r : Engine) (d : Decl) : Option (Byte × Word32) :=
  let need := (declBinds d).foldl (fun a b =>
    let g := s.region (handleIdx (r.bindAt b))
    if g.win = .unbacked then a + g.size else a) 0
  if s.capFree < need then some (s.refuse 9 stRefusedCapacity 0 0) else none

/-- The admission checks on this device, in order (R145). -/
def State.admitCheck (s : State) (e ctx : Nat) (d : Decl) (asLead : Bool) : Option (Byte × Word32) :=
  let r := s.eng e
  firstSome id [s.admitMode r,
    if (r.st = .loaded || r.st = .halted) && r.crew ≠ 0 && (!asLead || !r.coupled || s.isLead r) then none
      else some (s.refuse 2 stBadCommand 0 0),
    if admitDecl r d then none else some (s.refuse 3 stBadCommand 0 0),
    firstSome (s.admitBind r ctx) r.bound, firstSome (s.admitKind r) (declBinds d), firstSome (s.admitWin r) (declBinds d),
    s.admitVec r, s.admitRating r d, s.admitCap r d]

/-- A heat that waits for its launch. -/
def Heat.new (sq : QueueId) (cid : BitVec 16) (ctx start : Nat) (d : Decl) : Heat where
  sq := sq
  cid := cid
  ctx := ctx
  start := start
  decl := d
  rating := 0
  pr := 0
  charges := []
  phase := .waiting
  bases := []
  cycle := 0
  next := 0
  play := none
  link := none
  cons := none
  fails := []
  iterStrobe := false
  iterFail := false
  iterLast := 0
  prevFail := true
  occ := none
  oowAt := []
  fcsatEver := false
  hold := none
  abort := none
  resumeAt := none
  captImm := 0
  captBind := 0
  captLeft := 0
  raw := none
  tags := []
  fetched := []
  pendTsets := []
  summaries := []
  leadConds := []
  ends := []
  sent := none
  leadAt := 0
  leadSent := 0
  annFault := false
  begun := false
  barAt := none
  barLocal := none
  barDone := none
  barPeers := []
  asking := false
  answers := []
  peerEnds := []
  launchAt := none
  told := false
  wins := []
  wrote := []
  ended := none

/-- Charge a heat and take its windows (R117, R143, R146, R148). -/
def State.charge (s : State) (e : Nat) : State :=
  let r := s.eng e
  match r.heat with
  | none => s
  | some h =>
    let cs := s.vecCharges r
    let is_ := (declBinds h.decl).map fun b => handleIdx (r.bindAt b)
    let rating := s.ratingOf r h.decl
    let pr := s.ratedPeriod r
    let s := s.updHeat e fun h => { h with
      rating := rating
      pr := pr
      charges := cs
      wins := is_.map fun i => (i, (s.region i).win) }
    let s := cs.foldl (fun s c => s.updLane c.1 fun l => { l with vecLoad := l.vecLoad + c.2 }) s
    is_.foldl (fun s i => s.updRegion i fun g => { g with win := .capturing }) s

/-- A declared window enters CAPTURING (R151, R158, R165, R168). -/
def Region.declare (g : Region) (e : Word64) : Region :=
  { g with
    recIdx := 0
    rawPtr := 0
    kindCode := BitVec.ofNat 8 (declMode e - 1)
    wbase := declWbase e }

/-- The heat is admitted (R104 step 2, R139, R151, R160): the engine RUNNING, its registers as a launch leaves them, the
crew's fail counters 0. Cycle 0 will start at regatta tick `launchAt`. A COUPLED_PEER fault that another member's reset has
announced meanwhile stays due (R102). -/
def State.admitted (s : State) (e : Nat) (launchAt : Nat) : State :=
  let r := s.eng e
  match r.heat with
  | none => s
  | some h =>
    let s := (declUsed h.decl).foldl (fun s d => s.updRegion (handleIdx (r.bindAt (declBind d))) fun g => g.declare d) s
    let s := r.chans.foldl (fun s c => s.updChan c fun x => { x with failCnt := 0, failRun := (0, 0) }) s
    let s := s.updEng e fun r => { r with
      st := .running
      regs := EngRegs.reset
      flagHist := if r.regs.eflags = 0 then r.flagHist else (launchAt, 0) :: r.flagHist
      captMode := 0
      fcsat := false
      pc := BitVec.ofNat 12 h.start
      cycles := 0
      tsetMismatch := 0
      oow := 0
      logcnt := 0
      resumable := false
      holdCause := 0
      apgPast := [] }
    s.updHeat e fun h => { h with launchAt := some (launchAt * 512) }

/-- Ticks from admission to cycle 0 of a local heat, of a coupled heat, and from HEAT_RESUME to the resume tick (R104,
R105). -/
def launchDelay : Nat := 64
def coupledLaunchDelay : Nat := 1024
def coupledResumeDelay : Nat := 384

/-- The first refusal of a coupled admission: the lowest step, then the lowest regatta ID (R145). -/
def firstRefusal (l : List (Nat × Byte × Word32)) : Option (Byte × Word32) :=
  let bad := l.filter fun a => a.2.1 ≠ stOk
  (bad.foldl (fun (m : Option (Nat × Byte × Word32)) a => match m with
    | none => some a
    | some b => if fldN a.2.2 0 4 < fldN b.2.2 0 4 || (fldN a.2.2 0 4 = fldN b.2.2 0 4 && decide (a.1 < b.1)) then some a
      else some b) none).map (·.2)

/-- Once every member has answered, the lead launches the coupled heat or withdraws it (R104, R145, R148); Easy-All or a loss of
REFCLK that has come meanwhile refuses it (R189, R261). -/
def State.settleAnswers (s : State) (e : Nat) : State :=
  let r := s.eng e
  match r.heat with
  | none => s
  | some h =>
    let ids := s.ez.id.toNat :: s.peers r
    if !ids.all fun i => h.answers.any fun a => a.1 = i then s
    else
      match firstRefusal h.answers with
      | some (st, d) =>
        let s := s.sendAll (s.peers r) (.coupledWithdraw r.coupling)
        (s.withdraw e).finish h.sq h.cid st d
      | none =>
        if s.ea.latched then s.failAdmission e stNotReady
        else if s.refSpan then s.failAdmission e stRefAbsent
        else
          let t := s.rtick + coupledLaunchDelay
          (s.sendCrew r 2 0 t).admitted e t

/-- Admit a HEAT_START that has reached the head of its engine (R81, R104, R145, R148). A coupled heat is judged on every
member: each answers, and the lead decides. -/
def State.admitHeat (s : State) (e : Nat) (q : LaunchReq) : State :=
  let ctx := ctxOfQueue q.sq
  let r := s.eng e
  let bad := s.admitCheck e ctx q.decl true
  let put := fun (s : State) => s.updEng e fun r => { r with heat := some (Heat.new q.sq q.cid ctx q.start.toNat q.decl) }
  if r.coupled && s.isLead r then
    let s := put s
    let s := if bad.isNone then s.charge e else s
    let s := s.updHeat e fun h => { h with answers := [(s.ez.id.toNat, (bad.getD (stOk, 0)).1, (bad.getD (stOk, 0)).2)] }
    let s := s.sendAll (s.peers r) (.coupledAdmit r.coupling q.sq q.cid q.start q.decl (s.recAt q.sq q.cid))
    s.settleAnswers e
  else
    match bad with
    | some (st, d) => s.finish q.sq q.cid st d
    | none => ((put s).charge e).admitted e (s.rtick + launchDelay)

/-- Insert a HEAT_START in the order of fetch. -/
def insLaunch (q : LaunchReq) : List LaunchReq → List LaunchReq
  | [] => [q]
  | x :: l => if q.seq < x.seq then q :: x :: l else x :: insLaunch q l

/-- An earlier HEAT_START names engine e, is in flight and has neither been admitted nor completed (R278). -/
def State.earlierHeat (s : State) (e seq : Nat) : Bool :=
  s.host.inflight.any fun c =>
    c.opc = 0x01 && c.engine = some e && c.target = s.ez.id && c.open && decide (c.seq < seq)

/-- HEAT_START (R81, R104, R145, R278): behind a heat in progress or an earlier HEAT_START it waits in the launch queue. -/
def execHeatStart (h : Hdr) (engine : Byte) (start : BitVec 16) (decl : Decl) (s : State) :
    Host.Outcome State Fault Refusal :=
  .next (queueCmd s h 0x01 [(128, engine.toNat), (144, start.toNat), (256, decl.d0.toNat), (320, decl.d1.toNat),
      (384, decl.d2.toNat), (448, decl.d3.toNat)] (engine.toNat < 128 && start.toNat < 4096) (engineRec engine) false fun s =>
    let e := engine.toNat
    let r := s.eng e
    let seq := match s.cmd? h.sq h.cid with
      | some c => c.seq
      | none => s.host.fetchSeq
    let s := s.updCmd h.sq h.cid fun c => { c with engine := some e }
    let q : LaunchReq := ⟨seq, h.sq, h.cid, start, decl⟩
    if r.heat.isSome || !r.launchQ.isEmpty || s.earlierHeat e seq then
      s.updEng e fun r => { r with launchQ := insLaunch q r.launchQ }
    else s.admitHeat e q)

/-- HEAT_ADMISSION (R278): the first of the launch queue, once no heat is in progress and no earlier HEAT_START is still to
come. -/
def execHeatAdmission (e : EngineId) (s : State) : Host.Outcome State Fault Refusal :=
  .next (inRun s fun s =>
    let r := s.eng e.val
    match r.launchQ, r.heat with
    | q :: l, none =>
      if s.earlierHeat e.val q.seq then s else (s.updEng e.val fun r => { r with launchQ := l }).admitHeat e.val q
    | _, _ => s)

/-- The engine of this device that holds a coupling number. -/
def State.couplingEngine (s : State) (c : BitVec 7) : Option Nat :=
  (s.engines.find? fun e => e.2.coupled && e.2.coupling = c).map (·.1)

/-- A member is asked to take a coupled heat (R145, R148, R324): it is charged provisionally and answers. -/
def State.memberAdmit (s : State) (c : BitVec 7) (sq : QueueId) (cid start : BitVec 16) (decl : Decl) (lead : Nat) (rec : EntryRec) :
    State :=
  match s.couplingEngine c with
  | none => s.sendTo lead (.coupledAnswer c s.ez.id stBadCommand (s.refuse 2 stBadCommand 0 0).2)
  | some e =>
    let ctx := ctxOfQueue sq
    let bad : Option (Byte × Word32) :=
      if !(bit rec.engines e && grantsMember rec s.ez.id) then some (stDenied, 0)
      else if (s.eng e).heat.isSome then some (s.refuse 2 stBadCommand 0 0)
      else s.admitCheck e ctx decl false
    match bad with
    | some (st, d) => s.sendTo lead (.coupledAnswer c s.ez.id st d)
    | none =>
      let s := s.updEng e fun r => { r with heat := some (Heat.new sq cid ctx start.toNat decl) }
      (s.charge e).sendTo lead (.coupledAnswer c s.ez.id stOk 0)

/-- The status of a heat by precedence (R277). -/
def statusRank (st : Byte) : Nat :=
  if st = stEngineFault then 0 else if st = stDeviceSafe then 1 else if st = stAborted then 2 else 3

/-- The first of the statuses that the members ended with. -/
def worstStatus (l : List Byte) : Byte := l.foldl (fun m x => if statusRank x < statusRank m then x else m) stOk

/-- A FILLED window asks to be drained, after every earlier one (R161). -/
def State.markDrain (s : State) (i : Nat) : State :=
  let n := s.fc.drainSeq + 1
  let s := s.updRegion i fun g => { g with drainPending := true, drainSeq := n }
  { s with fc := { s.fc with drainSeq := n } }

/-- The windows of a heat that completes become FILLED; DRAIN sets DRAIN_PENDING (R143, R161), in the order of rising binding index
where one heat sets several (DESIGN CHOICE, log entry 140). The window names as its last engine
and its source a heat that has captured into it, and as its last heat this one (R168). -/
def State.fillWindows (s : State) (e : Nat) (h : Heat) (r : HeatEnd) : State :=
  h.wins.foldl (fun s w =>
    let drain := (declUsed h.decl).any fun d => declDrain d && handleIdx ((s.eng e).bindAt (declBind d)) = w.1
    let s := s.updRegion w.1 fun g => { g with
      win := .filled
      lastEngine := if h.wrote.contains w.1 then e else g.lastEngine
      lastTag := r.tag
      partialSrc := g.partialSrc || (h.wrote.contains w.1 && r.status ≠ stOk) }
    if drain then s.markDrain w.1 else s) s

/-- The heat of engine e completes with a status, that of the whole crew for a coupled one: its windows are filled, its charges
released, and no heat is left (R143, R149, R168, R277). -/
def State.heatDone (s : State) (e : Nat) (st : Byte) : State :=
  match (s.eng e).heat with
  | some h =>
    match h.ended with
    | some x => ((s.fillWindows e h { x with status := st }).discharge e).updEng e fun r => { r with heat := none }
    | none => s
  | none => s

/-- The results of a heat's completion: tag, fault code and address; cycles (R277). -/
def HeatEnd.result0 (r : HeatEnd) : Word64 := place 64 0 r.tag ||| place 64 32 r.code ||| place 64 40 r.addr

/-- HEAT_COMPLETION (R142, R149, R168, R277): once every capture write of the heat has landed. The lead of a coupled crew waits
until every member has ended. A member tells the lead of its end, and its part completes with the status that the lead then
sends (DEDUCED, log entry 141). -/
def execHeatCompletion (e : EngineId) (s : State) : Host.Outcome State Fault Refusal :=
  .next (inRun s fun s =>
    let r := s.eng e.val
    match r.heat with
    | none => s
    | some h =>
      match h.ended with
      | none => s
      | some x =>
        if s.fc.queue.any (fun w => w.engine = e.val) then s
        else if r.coupled && !s.isLead r then
          if h.told then s
          else (s.updHeat e.val fun h => { h with told := true }).sendTo (s.leadId r)
            (.coupledEnd r.coupling s.ez.id x.status h.fcsatEver)
        else if r.coupled && !(s.peers r).all (fun i => h.peerEnds.any fun p => p.1 = i) then s
        else
          let ends := if r.coupled then h.peerEnds else []
          let st := worstStatus (x.status :: ends.map (·.2.1))
          let sat := h.fcsatEver || ends.any (·.2.2)
          let s := (s.heatDone e.val st).sendAll (s.peers r) (.coupledDone h.sq h.cid st)
          let s := s.updCmd h.sq h.cid fun c => { c with fcsat := sat }
          s.finish h.sq h.cid st 0 x.result0 r.cycles)

/-- A HEAT_HOLD or HEAT_RESUME that names another member than the lead (R81). -/
def State.notLead (s : State) (r : Engine) : Bool := r.coupled && !s.isLead r

/-- HEAT_HOLD (R81, R105, R277). -/
def execHeatHold (h : Hdr) (engine : Byte) (s : State) : Host.Outcome State Fault Refusal :=
  .next (queueCmd s h 0x02 [(128, engine.toNat)] (engine.toNat < 128) (engineRec engine) false fun s =>
    let e := engine.toNat
    let r := s.eng e
    if s.notLead r then s.done h stBadCommand (placeN 32 0 (s.leadId r))
    else if r.st ≠ .running then s.done h stBadCommand
    else
      let s := s.updCmd h.sq h.cid fun c => { c with engine := some e }
      (s.sendCrew r 3 1 s.rtick).requestHold e 1)

/-- Why an engine of this device may not resume a resumable heat (R105, R189, R260, R261); 0 where it may. -/
def State.resumeBad (s : State) (r : Engine) : Byte :=
  if s.dev.holdReq || s.ea.latched then stNotReady
  else if s.refSpan then stRefAbsent
  else if r.holdCause = 4 && !s.ez.gotCatch then stNotReady
  else stOk

/-- Once every member of a coupled crew has answered, the lead resumes it on a common tick or refuses (R105, R260, R264). -/
def State.settleResume (s : State) (e : Nat) : State :=
  let r := s.eng e
  match r.heat with
  | none => s
  | some h =>
    let ids := s.ez.id.toNat :: s.peers r
    if !h.asking || !ids.all fun i => h.answers.any fun a => a.1 = i then s
    else
      let s := s.updHeat e fun h => { h with asking := false }
      match firstRefusal h.answers with
      | some (st, _) => s.finishAll (fun c => c.opc = 0x03 && c.holdOf e) st
      | none =>
        let t := s.rtick + coupledResumeDelay
        (s.sendCrew r 4 0 t).updHeat e fun x => { x with resumeAt := some (t * 512) }

/-- The lead asks a member whether its part of a coupled crew may resume (R260, R264; log entry 117). -/
def State.memberResume (s : State) (c : BitVec 7) (lead : Nat) : State :=
  let st := match s.couplingEngine c with
    | some e => if (s.eng e).st = .held && (s.eng e).resumable then s.resumeBad (s.eng e) else stBadCommand
    | none => stBadCommand
  s.sendTo lead (.coupledAnswer c s.ez.id st 0)

/-- HEAT_RESUME (R81, R105, R189, R260, R261, R264). A second one before the resume tick finds the hold already ending
(DEDUCED, log entry 35). The lead of a coupled crew asks every member first. -/
def execHeatResume (h : Hdr) (engine : Byte) (s : State) : Host.Outcome State Fault Refusal :=
  .next (queueCmd s h 0x03 [(128, engine.toNat)] (engine.toNat < 128) (engineRec engine) false fun s =>
    let e := engine.toNat
    let r := s.eng e
    if s.notLead r then s.done h stBadCommand (placeN 32 0 (s.leadId r))
    else if r.st ≠ .held || !r.resumable then s.done h stBadCommand
    else if s.resumeBad r ≠ stOk then s.done h (s.resumeBad r)
    else if (r.heat.bind (·.resumeAt)).isSome || r.heat.any (·.asking) then s.done h stBadCommand
    else
      let s := s.updCmd h.sq h.cid fun c => { c with engine := some e }
      if r.coupled then
        let s := s.updHeat e fun x => { x with asking := true, answers := [(s.ez.id.toNat, stOk, 0)] }
        (s.sendAll (s.peers r) (.coupledResume r.coupling s.ez.id)).settleResume e
      else s.updHeat e fun x => { x with resumeAt := some ((s.rtick + launchDelay) * 512) })

end Sys2Proof.Machine
end

