-- ==== Sys2Proof/Machine/Reframe.lean ====
section
/-! DEFINITION. A change of the count of frames while heats run (R259): the instants that a device remembers by regatta time
move with the count, so that each stays the same instant. Results and times that registers already show keep the count they were
taken in. -/

namespace Sys2Proof.Machine

/-- An instant of regatta time, in units of which a tick has u, once the count of ticks has moved by d. -/
def movedBy (d : Int) (u n : Nat) : Nat := ((n : Int) + d * u).toNat

/-- A history by regatta tick. -/
def histMoved {α : Type} (d : Int) (l : List (Nat × α)) : List (Nat × α) := l.map fun x => (movedBy d 1 x.1, x.2)

/-- A heat: played time stays, what it is laid out at in regatta time moves. -/
def Heat.moved (d : Int) (h : Heat) : Heat :=
  let fu := movedBy d 512
  { h with
    bases := h.bases.map fun b => (b.1, fu b.2)
    resumeAt := h.resumeAt.map fu
    raw := h.raw.map fun w => { w with start := movedBy d 1 w.start }
    pendTsets := h.pendTsets.map fun p => { p with at_ := fu p.at_ }
    summaries := h.summaries.map fun x => { x with s := movedBy d 1 x.s }
    leadConds := histMoved d h.leadConds
    leadAt := movedBy d 1 h.leadAt
    barAt := h.barAt.map fu
    barLocal := h.barLocal.map fu
    barDone := h.barDone.map fu
    barPeers := h.barPeers.map fun x => (x.1, x.2.1, fu x.2.2)
    launchAt := h.launchAt.map fu }

/-- An engine with its heat and the faults it awaits. -/
def Engine.moved (d : Int) (r : Engine) : Engine :=
  { r with
    heat := r.heat.map (Heat.moved d)
    peerFaultAt := r.peerFaultAt.map (movedBy d 512)
    peerDecAt := r.peerDecAt.map (movedBy d 512)
    flagHist := histMoved d r.flagHist }

/-- The device's and the regatta's flags. -/
def Flags.moved (d : Int) (f : Flags) : Flags :=
  let pend := fun (p : FlagPend) => { p with at_ := movedBy d 1 p.at_ }
  { f with
    devPend := f.devPend.map pend
    regPend := f.regPend.map pend
    devHist := histMoved d f.devHist
    regHist := histMoved d f.regHist }

/-- A fire. -/
def FireRec.moved (d : Int) (f : FireRec) : FireRec := { f with tick := movedBy d 1 f.tick }

/-- A trigger group: its arm, its fires and the done instants heard. -/
def Group.moved (d : Int) (g : Group) : Group :=
  { g with
    armAt := g.armAt.map (movedBy d 1)
    fires := g.fires.map (FireRec.moved d)
    decided := g.decided.map (FireRec.moved d)
    dones := g.dones.map fun x => (x.1, movedBy d 1 x.2)
    doneAt := movedBy d 1 g.doneAt
    trigHist := histMoved d g.trigHist }

/-- A TIM unit and its measurement in progress. -/
def Tim.moved (d : Int) (t : Tim) : Tim :=
  { t with
    armAt := movedBy d 1 t.armAt
    startT := movedBy d 131072 t.startT
    stopAt := t.stopAt.map (movedBy d 131072)
    deadEnd := movedBy d 1 t.deadEnd }

/-- An acquisition unit and its record in progress. -/
def Acq.moved (d : Int) (a : Acq) : Acq :=
  { a with
    preAt := movedBy d 1 a.preAt
    fire := a.fire.map (FireRec.moved d)
    lastHdr := a.lastHdr.map fun x => (x.1, x.2.1, movedBy d 1 x.2.2) }

/-- The edges and the strobe events of a channel that are kept by regatta time. -/
def Chan.moved (d : Int) (c : Chan) : Chan :=
  { c with useD := c.useD.map (movedBy d 512), useS := c.useS.map (movedBy d 512) }

/-- The switches of a spare. -/
def CalLane.moved (d : Int) (l : CalLane) : CalLane :=
  let sw := fun (p : PathSwitch) => { p with at_ := movedBy d 512 p.at_ }
  { l with driveWas := l.driveWas.map sw, strobeWas := l.strobeWas.map sw }

/-- An ordered event that waits. -/
def OrdEv.moved (d : Int) : OrdEv → OrdEv
  | .arm g t h id e => .arm g (movedBy d 1 t) h id e
  | .disarm g t h id e => .disarm g (movedBy d 1 t) h id e
  | .done g id t => .done g id (movedBy d 1 t)

/-- What the regatta's state keeps by regatta time; the lead itself moves too. -/
def Ez.moved (d : Int) (z : Ez) : Ez :=
  { z with
    lead := z.lead + d
    genTick := movedBy d 1 z.genTick
    catchFall := movedBy d 1 z.catchFall
    newStrokeFrom := z.newStrokeFrom.map (movedBy d 1)
    ordered := z.ordered.map fun o => ⟨movedBy d 1 o.at_, o.ev.moved d⟩ }

/-- The device counts its ticks of regatta time d further (R259). -/
def State.reframe (s : State) (d : Int) : State :=
  if d = 0 then s
  else { s with
    ez := s.ez.moved d
    engines := s.engines.map fun x => (x.1, x.2.moved d)
    flags := s.flags.moved d
    groups := s.groups.map fun x => (x.1, x.2.moved d)
    tims := s.tims.map fun x => (x.1, x.2.moved d)
    acqs := s.acqs.map fun x => (x.1, x.2.moved d)
    chans := s.chans.map fun x => (x.1, x.2.moved d)
    calLanes := s.calLanes.map fun x => (x.1, x.2.moved d)
    lanes := s.lanes.map fun x => (x.1, { x.2 with derHist := histMoved d x.2.derHist })
    trg := { s.trg with outRise := s.trg.outRise.map (movedBy d 1), outFall := movedBy d 1 s.trg.outFall }
    ref := { s.ref with
      lossEdge := movedBy d 1 s.ref.lossEdge
      spans := s.ref.spans.map fun x => (movedBy d 1 x.1, movedBy d 1 x.2) }
    log := { s.log with
      finished := s.log.finished.map fun p => { p with ends := movedBy d 1 p.ends }
      intake := s.log.intake.map fun p => { p with pkt := { p.pkt with ends := movedBy d 1 p.pkt.ends } }
      filling := s.log.filling.map fun p => { p with pkt := { p.pkt with ends := movedBy d 1 p.pkt.ends } }
      draining := s.log.draining.map fun w => { w with loss := w.loss.map fun x => (movedBy d 1 x.1, x.2) } }
    pins := { s.pins with hist := histMoved d s.pins.hist } }

end Sys2Proof.Machine
end

