-- ==== Sys2Proof/Machine/EventRx.lean ====
section
/-! DEFINITION. Event flits as a port receives them (R241 to R244, R261 to R264), and the ordered events that wait for their
apply instants. -/

namespace Sys2Proof.Machine

/-- Send a flit on again as it came, twice (R242, R243). -/
def State.relay (s : State) (ps : List Nat) (typ : Nat) (rx : EvtRx) : State :=
  ps.foldl (fun s p => s.putEvt p typ (evtFlit typ rx.src rx.ts rx.payload)) s

/-- Copies with a bad CRC are counted (R265). -/
def State.countCrc (s : State) (rx : EvtRx) : State :=
  s.updPort rx.port.val fun p => { p with crc := satAdd p.crc ((!rx.good1).toNat + (!rx.good2).toNat) }

/-- A LINK event for a sequence number: acknowledge or reject (R240, R242). -/
def State.linkEvent (s : State) (p : Nat) (reject : Bool) (seq : BitVec 12) : State :=
  s.sendEvt p 9 s.rtick (place 30 0 seq ||| placeB 30 12 reject)

/-- The flit is received at all (R243, R244). -/
def rxReceived (rx : EvtRx) : Bool := rx.good1 || rx.good2 || rx.replayed

/-- The detail word of source 50 + n (R298). -/
def portDetail (down : Bool) (typ : Nat) : Word32 := placeB 32 0 down ||| placeN 32 8 typ

/-- A late event is counted and reported (R244). -/
def State.lateMark (s : State) (p typ : Nat) : State :=
  let s := s.updPort p fun r => { r with late := satInc r.late }
  State.umpEvent { s with ez := { s.ez with lateEvent := true } } (50 + p) (portDetail false typ)

/-- A flooded or an ordered event comes in on a port (R242 to R244): a flit of which neither copy is good is rejected, so that it comes
again by replay, and is then late. `act` has whether it is late, and its regatta tick; `due` gives the apply instant of an event of
that tick. -/
def State.receiveEvt (s : State) (rx : EvtRx) (typ : Nat) (due : Nat → Option Nat) (act : State → Bool → Nat → State) : State :=
  let p := rx.port.val
  let s := s.countCrc rx
  if !rxReceived rx then s.linkEvent p true (s.port p).rxSeq
  else
    let t := resolveTs s.rtick rx.ts
    let late := rx.replayed || (match due t with | some d => decide (d < s.rtick) | none => false)
    act (if late then s.lateMark p typ else s) late t

/-- An ordered event arrives (R242 to R244): from below it goes up the tree, and from above, or at the top, it is broadcast and taken by
`act`. A CROSS link carries ROLE events alone (R246). -/
def State.receive (s : State) (rx : EvtRx) (typ : Nat) (due : Nat → Option Nat) (act : State → Bool → Nat → State) : State :=
  let p := rx.port.val
  if !(s.port p).up then s
  else if (s.port p).role = 3 && typ ≠ 7 then s.countCrc rx
  else
    s.receiveEvt rx typ due fun s late t =>
      if (s.port p).role ≠ 1 && !s.isTop then s.relay (s.portsOf 1) typ rx
      else act (s.relay (s.portsOf 2) typ rx) late t

/-- The apply instant of FIRE, ARM, DONE and RFLAG (R244). -/
def dueOrdered (t : Nat) : Option Nat := some (t + orderedDelay)

/-- Fields of a payload (R242). -/
def payGroup (v : BitVec 30) : Nat := fldN v 0 4

/-- EZ_EVT_FIRE (R194, R196). -/
def execEzEvtFire (rx : EvtRx) (s : State) : Host.Outcome State Fault Refusal :=
  .next (inRun s fun s => s.receive rx 1 dueOrdered fun s _ t =>
    s.recordFire (payGroup rx.payload)
      ⟨t, fldN rx.payload 13 17, rx.src.toNat, fldN rx.payload 4 2, fldN rx.payload 6 7⟩)

/-- EZ_EVT_ARM (R195): a late one is applied on arrival. -/
def execEzEvtArm (rx : EvtRx) (s : State) : Host.Outcome State Fault Refusal :=
  .next (inRun s fun s => s.receive rx 2 dueOrdered fun s late t =>
    let g := payGroup rx.payload
    let dis := bit rx.payload 4
    let h := bit rx.payload 12
    let e := fldN rx.payload 5 7
    let id := rx.src.toNat
    if late then s.applyOrdered s.rtick (if dis then .disarm g t h id e else .arm g t h id e)
    else s.recordArm g t dis h id e)

/-- EZ_EVT_DONE (R198). -/
def execEzEvtDone (rx : EvtRx) (s : State) : Host.Outcome State Fault Refusal :=
  .next (inRun s fun s => s.receive rx 3 dueOrdered fun s late t =>
    let ev : OrdEv := .done (payGroup rx.payload) rx.src.toNat t
    if late then s.applyOrdered s.rtick ev else s.addOrdered (t + orderedDelay) ev)

/-- EZ_EVT_RFLAG (R100, R242): a late change is applied on arrival. -/
def execEzEvtRflag (rx : EvtRx) (s : State) : Host.Outcome State Fault Refusal :=
  .next (inRun s fun s => s.receive rx 4 dueOrdered fun s late t =>
    s.pendRegFlag (if late then s.rtick else t + orderedDelay) (fldN rx.payload 0 4) (bit rx.payload 4))

/-- A COUPLED_PEER fault will be taken at the first granule boundary at or after regatta tick t (R102). -/
def State.peerFault (s : State) (e t : Nat) : State :=
  s.updEng e fun r =>
    if r.active || r.heat.any Heat.awaits then { r with peerFaultAt := some (min (t * 512) (r.peerFaultAt.getD (t * 512))) } else r

/-- The apply instant of a CREW event of each operation (R263): a fault at a decision point is taken there. -/
def crewDue (op data t : Nat) : Nat :=
  if op = 2 || op = 4 || (op = 5 && data % 256 ≠ 0 && data % 256 ≠ 0x12 && data % 256 ≠ 0x13) then t else t + 384

/-- A member's FAULT reaches this one (R102): a reset, a SAFE entry, or a member that lacked a summary, is followed 384 ticks
later; any other fault at the same decision point, which this member meets at or after the event. The spec does not say when the
others follow a FETCH fault at a granule boundary that is no decision point: they fault at their next decision point (DESIGN CHOICE, log
entry 136). -/
def State.crewFault (s : State) (e code t : Nat) : State :=
  if code = 0 || code = 0x12 || code = 0x13 then s.peerFault e (t + 384)
  else s.updEng e fun r =>
    if r.active || r.heat.any Heat.awaits then { r with peerDecAt := some (min (t * 512) (r.peerDecAt.getD (t * 512))) } else r

/-- A CREW event of another member takes effect on engine e (R263). A late SUMMARY or LEAD_COND is not taken, so that the member
lacks it at D. -/
def State.crewEvent (s : State) (e : Nat) (late : Bool) (src op data t : Nat) : State :=
  match op with
  | 0 => if late then s else
      (s.updHeat e fun h => { h with summaries := ⟨src, t, data.testBit 0, data.testBit 1⟩ :: h.summaries }).foreseeAgain e
  | 1 => if late then s else
      (s.updHeat e fun h => { h with leadConds := (t, decide (data % 2 = 1)) :: h.leadConds }).foreseeAgain e
  | 2 =>
    if !(s.eng e).heat.any Heat.awaits then s
    else
      let s := s.admitted e t
      if s.ea.latched then s.easyHold e else if s.refSpan then s.requestHold e 3 else if s.dev.holdReq then s.requestHold e 2 else s
  | 3 => if (s.eng e).mayHold then s.requestHoldAt e t (BitVec.ofNat 3 data) else s
  | 4 => if (s.eng e).st = .held then s.updHeat e fun h => { h with resumeAt := some (t * 512) } else s
  | 5 => s.crewFault e (data % 256) t
  | 6 => (s.updHeat e fun h => { h with barPeers :=
      (src, data % 16, t * 512) :: h.barPeers.filter fun p => p.1 ≠ src }).closeBar e (data % 16)
  | _ => s

/-- EZ_EVT_CREW (R102, R263). A late one makes the crew fault (R244): this member at its next boundary, the others when they
hear of it. -/
def execEzEvtCrew (rx : EvtRx) (s : State) : Host.Outcome State Fault Refusal :=
  .next (inRun s fun s =>
    let op := fldN rx.payload 7 3
    s.receive rx 5 (fun t => some (crewDue op (fldN rx.payload 10 20) t)) fun s late t =>
      match s.couplingEngine (fld rx.payload 0 7) with
      | none => s
      | some e =>
        if rx.src = s.ez.id then s
        else
          let s := s.crewEvent e late rx.src.toNat op (fldN rx.payload 10 20) t
          if late && (s.eng e).active then (s.sendCrew (s.eng e) 5 0x12 s.rtick).peerFault e s.rtick else s)

/-- The coupled engines that satisfy p and play, or will play, a heat are asked to hold at regatta tick t (R189, R259, R264). -/
def State.holdCoupled (s : State) (p : Engine → Bool) (t : Nat) (cause : BitVec 3) : State :=
  (s.enginesIn fun r => r.coupled && r.mayHold && p r).foldl (fun s e => s.requestHoldAt e t cause) s

/-- Fields of EZ_STROKE (R265). -/
def strokeId (v : Word32) : Nat := fldN v 0 6
def standbyId (v : Word32) : Nat := fldN v 8 6
def standbyEn (v : Word32) : Bool := bit v 15

/-- EZ_STROKE takes a value, and the device its roles (R257). The time without a generation counts from when the device becomes
standby (R258). -/
def State.takeStroke (s : State) (v : Word32) : State :=
  let standby := standbyEn v && standbyId v = s.ez.id.toNat
  { s with ez := { s.ez with
    strokeReg := v
    stroke := strokeId v = s.ez.id.toNat
    standby := standby
    genAt := if standby && !s.ez.standby then s.now else s.ez.genAt
    catchOut := s.ez.catchOut && strokeId v = s.ez.id.toNat } }

/-- The stroke is from regatta tick t the device `id`, with no standby named (R259); a survey follows (R255). Each device sets
its own copy of EZ_STROKE (DEDUCED, log entry 43). -/
def State.strokeIs (s : State) (id : BitVec 6) (t : Nat) : State :=
  let s := s.takeStroke (place 32 0 id)
  let s := { s with ez := { s.ez with newStrokeFrom := some t, gotCatch := false } }
  if s.isTop then s.startSurveys else s

/-- The ticks by which the count moves when the standby counts frames from the last complete generation, on its own grid (R259). -/
def State.genShift (s : State) : Int :=
  if !s.ez.standby || s.ez.gen = 0 then 0
  else ((s.ez.genFrame.toNat : Int) - ((s.ez.genTick / frameTicks : Nat) : Int)) * (frameTicks : Int)

/-- This device becomes the stroke at regatta tick t, its declaration or the grant (R259). Where its count of frames moves, so does
every instant that it keeps by that count, t among them. -/
def State.becomeStroke (s : State) (t : Nat) : State :=
  let former := strokeId s.ez.strokeReg
  let t := movedBy s.genShift 1 t
  let s := (s.reframe s.genShift).strokeIs s.ez.id t
  let s := s.sendOrdered 6 t 4 id
  let s := s.umpEvent 55 (place 32 0 s.ez.id ||| placeN 32 8 former)
  s.holdCoupled (fun _ => true) t 4

/-- EZ_EVT_HOLD (R258, R259, R264). -/
def execEzEvtHold (rx : EvtRx) (s : State) : Host.Outcome State Fault Refusal :=
  .next (inRun s fun s => s.receive rx 6 (fun t => some (t + 384)) fun s _ t =>
    if rx.src = s.ez.id then s
    else if fldN rx.payload 0 3 = 4 then
      (s.strokeIs rx.src t).holdCoupled (fun _ => true) t 4
    else if fldN rx.payload 0 3 = 3 then
      let s := s.holdCoupled (fun r => (s.couplingIds r.coupling).contains rx.src.toNat) t 3
      if s.ez.standby && strokeId s.ez.strokeReg = rx.src.toNat && s.ref.present then s.becomeStroke s.rtick else s
    else s)

/-- The raiser kind by which the model's EASYALL flit says clear; the kinds of R265 end at 4 (PRESUMED, log entry 44). -/
def eaClearKind : Nat := 7

/-- EZ_EVT_EASYALL (R261, R262): applied at once and flooded. -/
def execEzEvtEasyall (rx : EvtRx) (s : State) : Host.Outcome State Fault Refusal :=
  .next (inRun s fun s =>
    let p := rx.port.val
    if !(s.port p).up then s
    else if (s.port p).role = 3 then s.countCrc rx
    else
      s.receiveEvt rx 0 (fun _ => none) fun s _ t =>
        let s := s.relay ((s.portsOf 1 ++ s.portsOf 2).filter fun q => q ≠ p) 0 rx
        if fldN rx.payload 1 3 = eaClearKind then s.clearEasyAll
        else s.easyAll (bit rx.payload 0) (fldN rx.payload 1 3) rx.src.toNat (fldN rx.payload 4 7) t)

/-- EZ_ORDERED_EVENT_APPLY (R244): an arm, disarm or done instant reaches its apply instant. -/
def execEzOrderedEventApply (s : State) : Host.Outcome State Fault Refusal :=
  .next (inRun s fun s =>
    match dueOrd s.rtick s.ez.ordered with
    | none => s
    | some o => State.applyOrdered { s with ez := { s.ez with ordered := dropFirst o s.ez.ordered } } o.at_ o.ev)

/-- A link event arrives on one link (R242): TT and LINK events are never sent on. -/
def State.receiveLink (s : State) (rx : EvtRx) (act : State → Nat → State) : State :=
  if !(s.port rx.port.val).up then s
  else
    let s := s.countCrc rx
    if rxReceived rx then act s rx.port.val else s

/-- A side's timestamps of exchange n. -/
def Port.stamp (r : Port) (n : Nat) (a b : Int) : Port := { r with tt := (n, a, b) :: r.tt.filter fun x => x.1 ≠ n }

/-- EZ_EVT_TT (R253): the child replies to each request, and the parent goes on to the next of 1,024 exchanges. The operands are this
port's two timestamps of the exchange, in raw units of 2^-8 fu: t2 and t3 on the child, t1 and t4 on the parent. -/
def execEzEvtTt (rx : EvtRx) (first second : Int) (s : State) : Host.Outcome State Fault Refusal :=
  .next (inRun s fun s => s.receiveLink rx fun s p =>
    let n := fldN rx.payload 1 12
    let s := s.updPort p fun r => r.stamp n first second
    if !bit rx.payload 0 then s.sendEvt p 8 s.rtick (rx.payload ||| 1)
    else if s.ez.surveyBusy && n + 1 = (s.port p).ttSent && !(s.port p).ttOver then s.ttNext p
    else s)

/-- The sender replays from the first flit that is not acknowledged, and after a rejection the event flits it keeps too (R240,
R244). -/
def State.replay (s : State) (p : Nat) (rejected : Bool) : State :=
  let r := s.port p
  let ev := if rejected then (r.evts.filter fun e => decide (s.now < e.1 + usTicks)).reverse else []
  let s := s.sends (ev.flatMap fun e => [.event p e.2, .event p e.2])
  if r.unacked.isEmpty || 8 ≤ r.replays then s
  else (s.sends (r.unacked.map fun u => .data p u.2)).updPort p fun r => { r with replays := r.replays + 1, sentAt := s.now }

/-- Flits up to and including a sequence number are acknowledged (R240). -/
def Port.ack (r : Port) (seq : BitVec 12) (now : Nat) : Port :=
  match r.unacked.findIdx? fun u => u.1 = seq with
  | some i => { r with unacked := r.unacked.drop (i + 1), replays := 0, sentAt := now }
  | none => r

/-- EZ_EVT_LINK (R240): what waited for room is sent. -/
def execEzEvtLink (rx : EvtRx) (s : State) : Host.Outcome State Fault Refusal :=
  .next (inRun s fun s => s.receiveLink rx fun s p =>
    if bit rx.payload 12 then s.replay p true
    else s.pumpPort p ((s.port p).ack (fld rx.payload 0 12) s.now))

/-- EZ_REPLAY_TIMEOUT (R240). -/
def execEzReplayTimeout (p : PortId) (s : State) : Host.Outcome State Fault Refusal :=
  .next (inRun s fun s => if (s.port p.val).sentAt + usTicks ≤ s.now then s.replay p.val false else s)

/-- EZ_EVT_RESERVED_TYPE (R242): discarded and counted. -/
def execEzEvtReservedType (rx : EvtRx) (s : State) : Host.Outcome State Fault Refusal :=
  .next (inRun s fun s =>
    if (s.port rx.port.val).up then s.updPort rx.port.val fun p => { p with crc := satInc p.crc } else s)

end Sys2Proof.Machine
end

