-- ==== Sys2Proof/Machine/LogStream.lean ====
section
/-! DEFINITION. The Log stream (R209 to R215). -/

namespace Sys2Proof.Machine

/-- Read words that a packet of n words occupies (R211). -/
def readWordsOf (n : Nat) : Nat := ceilDiv n 7

/-- Read words in the filling bank. -/
def LogSt.fillWords (l : LogSt) : Nat := l.filling.foldl (fun a p => a + readWordsOf p.pkt.words.length) 0

/-- The place of a kind among packets finished together (R210). -/
def kindOrder (k : Nat) : Nat := ([5, 4, 6, 2, 3, 7, 1, 0].idxOf? k).getD 8

/-- Whether packet a enters the intake before packet b: the CK_C cycle (2 ticks) it was finished in, then kind, then unit
(R210). -/
def Pkt.before (a b : Pkt) : Bool :=
  if a.at_ / 2 ≠ b.at_ / 2 then a.at_ / 2 < b.at_ / 2
  else if a.kind ≠ b.kind then kindOrder a.kind < kindOrder b.kind
  else a.unit < b.unit

/-- The first of a list by `before`, and the list without it. -/
def takeFirst : List Pkt → Option (Pkt × List Pkt)
  | [] => none
  | p :: r =>
    match takeFirst r with
    | none => some (p, [])
    | some (q, r') => if q.before p then some (q, p :: r') else some (p, q :: r')

/-- The oldest packet of the uncommitted store is discarded and counted (R212). -/
def LogSt.discard (l : LogSt) : LogSt :=
  match l.filling, l.intake with
  | p :: r, _ => { l with
      filling := r
      lostPkts := satInc l.lostPkts
      lostWords := satAdd l.lostWords p.pkt.words.length
      lost := true }
  | [], p :: r => { l with
      intake := r
      lostPkts := satInc l.lostPkts
      lostWords := satAdd l.lostWords p.pkt.words.length
      lost := true }
  | [], [] => l

/-- Discard until p holds, at most n times. -/
def LogSt.discardUntil (p : LogSt → Bool) : Nat → LogSt → LogSt
  | 0, l => l
  | n + 1, l => if p l then l else LogSt.discardUntil p n l.discard

/-- The packets of an uncommitted store that a later one lacks: the oldest (R212). -/
def LogSt.lostSince (old new : LogSt) : List LogPkt :=
  (old.filling ++ old.intake).take
    (old.filling.length + old.intake.length - (new.filling.length + new.intake.length))

/-- Each discarded packet sends an event to the Umpire (R298). -/
def State.lostEvents (s : State) (l : List LogPkt) : State := l.foldl (fun s p => s.umpEvent 46 (place 32 0 p.seq)) s

/-- Read words and whole packets in both banks (R215). -/
def LogSt.fill (l : LogSt) : Nat := l.fillWords + l.draining.length
def LogSt.pkts (l : LogSt) : Nat := l.filling.length + (l.draining.filter (·.first)).length

/-- LOG_PACKET_ENTER (R210, R212). -/
def execLogPacketEnter (s : State) : Host.Outcome State Fault Refusal :=
  .next (inRun s fun s =>
    match takeFirst s.log.finished with
    | none => s
    | some (p, rest) =>
      let l := s.log.discardUntil (fun l => decide (l.intake.length < 256))
        (s.log.intake.length + s.log.filling.length)
      let lost := s.log.lostSince l
      State.lostEvents { s with log := { l with finished := rest, intake := l.intake ++ [⟨l.seq, p⟩], seq := l.seq + 1 } } lost)

/-- The fill rises to LEVEL: the bit and the vector (R215). -/
def State.logLevel (s : State) (before : Nat) : State :=
  let lv := fldN s.log.cfg 0 13
  if before < lv && lv ≤ s.log.fill then
    let s := { s with log := { s.log with levelIrq := true } }
    if bit s.log.cfg 24 then s.sendVector (fldN s.log.cfg 16 8) else s
  else s

/-- LOG_INTAKE_TO_BANK (R210, R212): the oldest packet of the intake enters the filling bank, after discards where the bank
lacks room. -/
def execLogIntakeToBank (s : State) : Host.Outcome State Fault Refusal :=
  .next (inRun s fun s =>
    match s.log.intake with
    | [] => s
    | p :: _ =>
      let before := s.log.fill
      let l := s.log.discardUntil
        (fun l => decide (l.fillWords + readWordsOf p.pkt.words.length ≤ 2048)) s.log.filling.length
      let lost := s.log.lostSince l
      (State.lostEvents { s with log := { l with intake := l.intake.drop 1, filling := l.filling ++ [p] } } lost).logLevel before)

/-- Words of one read word as 256 bits: header and seven slots (R213). -/
def readWord (seq : BitVec 12) (kind : Nat) (bank : Bool) (ws : List Word32) (last : Bool) : BitVec 256 :=
  let hdr : Word32 := placeN 32 0 (4 * ws.length) ||| (if last then placeB 32 (4 + ws.length) true else 0) |||
    placeB 32 12 bank ||| place 32 16 seq ||| placeN 32 28 kind
  (ws.zipIdx 1).foldl (fun a (w, i) => a ||| place 256 (32 * i) w) (place 256 0 hdr)

/-- Where a packet's first read word holds REF_ABSENT: behind the header word (R188, R213). -/
def Pkt.lossAt (p : Pkt) (first : Bool) : Option (Nat × Nat) :=
  if first then (refAbsentBit p.kind).map fun b => (p.ends, 32 + b) else none

/-- The read words of a packet, at most n of them (R211, R213). -/
def packetWords (bank : Bool) (p : LogPkt) : Nat → Bool → List Word32 → List ReadWord
  | 0, _, _ => []
  | n + 1, first, ws =>
    if ws.length ≤ 7 then [⟨readWord p.seq p.pkt.kind bank ws true, first, p.pkt.lossAt first⟩]
    else ⟨readWord p.seq p.pkt.kind bank (ws.take 7) false, first, p.pkt.lossAt first⟩ :: packetWords bank p n false (ws.drop 7)

/-- The banks swap: every packet of the filling bank is committed (R211). -/
def LogSt.swapBanks (l : LogSt) : LogSt :=
  { l with
    draining := (l.filling.map fun p => packetWords l.fillBank p (readWordsOf p.pkt.words.length) true p.pkt.words).flatten
    filling := []
    fillBank := !l.fillBank }

/-- LOG_SWAP.MIN, where 0 acts as 1 (R217). -/
def LogSt.minWords (l : LogSt) : Nat := max 1 (fldN l.swap 0 12)

/-- LOG_BANK_SWAP (R211). -/
def execLogBankSwap (s : State) : Host.Outcome State Fault Refusal :=
  .next (inRun s fun s =>
    if s.log.draining.isEmpty && s.log.minWords ≤ s.log.fillWords then { s with log := s.log.swapBanks } else s)

/-- A packet of the filling bank has waited TIMEOUT us; 0 never acts (R211, R217). -/
def State.logWaited (s : State) : Bool :=
  let t := fldN s.log.swap 16 16
  t ≠ 0 && s.log.filling.any fun p => p.pkt.at_ + t * usTicks ≤ s.now

/-- LOG_SWAP_TIMEOUT (R211). -/
def execLogSwapTimeout (s : State) : Host.Outcome State Fault Refusal :=
  .next (inRun s fun s =>
    if s.log.draining.isEmpty && s.logWaited then { s with log := s.log.swapBanks } else s)

/-- The idle word (R213). -/
def idleWord : BitVec 256 := 0xF0000000

/-- A read of one dword of the window: dword 0 of a unit takes the next read word (R214). -/
def LogSt.readDword (l : LogSt) (d : Nat) : Word32 × LogSt :=
  let l := if d % 8 = 0 then
      match l.draining with
      | [] => { l with last := idleWord }
      | w :: r => { l with last := w.word, draining := r }
    else l
  (fld l.last (32 * (d % 8)) 32, l)

/-- A burst of n dwords from dword d. -/
def LogSt.readDwords : Nat → Nat → LogSt → List Word32 × LogSt
  | _, 0, l => ([], l)
  | d, n + 1, l =>
    let (w, l) := l.readDword d
    let (ws, l) := LogSt.readDwords (d + 1) n l
    (w :: ws, l)

/-- LOG_READ (R214): a burst read of the window. -/
def execLogRead (dword count : Nat) (s : State) : Host.Outcome State Fault Refusal :=
  .next (readWhenReady s count fun s =>
    let (ws, l) := s.log.readDwords dword count
    { s with log := l }.send (.readData ws))

/-- LOG_LOST_PKTS_READ (R8 code RC, R212). -/
def execLogLostPktsRead (s : State) : Host.Outcome State Fault Refusal :=
  .next (readWhenReady s 1 fun s =>
    { s with log := { s.log with lostPkts := 0 } }.send (.readData [s.log.lostPkts]))

/-- LOG_LOST_WORDS_READ (R8 code RC, R212). -/
def execLogLostWordsRead (s : State) : Host.Outcome State Fault Refusal :=
  .next (readWhenReady s 1 fun s =>
    { s with log := { s.log with lostWords := 0 } }.send (.readData [s.log.lostWords]))

end Sys2Proof.Machine
end

