-- ==== Sys2Proof/Machine/BhOps.lean ====
section
/-! DEFINITION. The Boathouse's log in flash, and security events (R315, R316, R333). -/

namespace Sys2Proof.Machine

/-- What an erased flash byte reads as (R320). -/
def erased : Byte := 0xFF

/-- Offset and entries of the log area, entries in a sector, bytes in a sector (R315, R316). -/
def logBase : Nat := 0x03800000
def logEntries : Nat := 65536
def sectorEntries : Nat := 1024
def sectorBytes : Nat := 65536

/-- The 64 bytes of a log entry with 44 bytes of DATA (R316). -/
def logEntry (seq : Word32) (time : Nat) (kind len : Nat) (data : List Byte) : List Byte :=
  let body := bytesLE 4 seq.toNat ++ bytesLE 8 (rtWord time).toNat ++ bytesLE 2 kind ++ bytesLE 2 len ++ sliceB data 0 44
  body ++ bytesLE 4 (crc32Bytes body).toNat

/-- The next SEQ (R316). -/
def nextLogSeq (x : Word32) : Word32 := if x + 1 = 0xFFFFFFFF then 0 else x + 1

/-- Write one entry at the write pointer, which then moves on; a sector that it is about to enter is erased first (R316). -/
def State.bhWriteLog (s : State) (kind len : Nat) (data : List Byte) : State :=
  let b := s.bh
  let f := Memory.writeN erased b.flash (logBase + 64 * b.logPtr) (logEntry b.logSeq s.rtick kind len data)
  let p := (b.logPtr + 1) % logEntries
  { s with bh := { b with
      flash := if p % sectorEntries = 0 then Memory.clear f (logBase + 64 * p) sectorBytes else f
      logPtr := p
      logSeq := nextLogSeq b.logSeq } }

/-- An entry with this data; the bytes past LEN are free. -/
def State.bhLog (s : State) (kind : Nat) (data : List Byte) : State :=
  let (pad, t) := s.freeBytes (44 - data.length)
  t.bhWriteLog kind data.length (data ++ pad)

/-- An entry of a kind whose data the spec does not lay out: length and data are free (log entry 23). -/
def State.bhLogOpen (s : State) (kind : Nat) : State :=
  let (v, t) := s.takeFree
  let (data, u) := t.freeBytes 44
  u.bhWriteLog kind (v.toNat % 45) data

/-- A security event: Umpire source 73, and a log entry that carries its kind code (R316, R333). -/
def State.secEvent (s : State) (kind : Nat) : State :=
  (s.umpEvent 73 (placeN 32 0 kind)).bhLog 9 [BitVec.ofNat 8 kind]

end Sys2Proof.Machine
end

