-- ==== Sys2Proof/Machine/Ecdsa.lean ====
section
/-! DEFINITION. Verification of ECDSA signatures over P-384, as FIPS 186-5 defines it (R321, R326, R330). A key is x and y and a
signature r and s, each the upper half and the lower half of its 768 bits. -/

namespace Sys2Proof.Machine

/-- The field, the order of the base point, the curve's constant b and the base point of P-384 (SP 800-186). -/
def p384 : Nat := 2 ^ 384 - 2 ^ 128 - 2 ^ 96 + 2 ^ 32 - 1
def n384 : Nat := 0xFFFFFFFFFFFFFFFFFFFFFFFFFFFFFFFFFFFFFFFFFFFFFFFFC7634D81F4372DDF581A0DB248B0A77AECEC196ACCC52973
def b384 : Nat := 0xB3312FA7E23EE7E4988E056BE3F82D19181D9C6EFE8141120314088F5013875AC656398D8A2ED19D2A85C8EDD3EC2AEF
def base384 : Nat × Nat :=
  (0xAA87CA22BE8B05378EB1C71EF320AD746E1D3B628BA79B9859F741E082542A385502F25DBF55296C3A545E3872760AB7,
    0x3617DE4A96262C6F5D9E98BF9292DC29F8F41DBD289A147CE9DA3113B5F0B8C00A60B1CE1D7E819D7A431D7C90EA0E5F)

/-- The bits of a scalar, the highest first. -/
def scalarBits (k : Nat) : List Bool := (List.range 384).map fun i => k.testBit (383 - i)

/-- A power modulo m, by squaring. -/
def powMod (m x k : Nat) : Nat := (scalarBits k).foldl (fun a b => if b then a * a % m * x % m else a * a % m) 1

/-- The inverse modulo a prime (Fermat). -/
def invMod (m x : Nat) : Nat := powMod m x (m - 2)

/-- A point of the curve; none is the point at infinity. -/
abbrev Point := Option (Nat × Nat)

/-- The point lies on the curve y^2 = x^3 - 3 x + b. -/
def onCurve (q : Nat × Nat) : Bool :=
  decide (q.1 < p384) && decide (q.2 < p384) && decide ((q.2 * q.2 + 3 * q.1) % p384 = (q.1 * q.1 * q.1 + b384) % p384)

/-- The third point of the line of slope m through two points, reflected. -/
def chord (m : Nat) (x y x' : Nat) : Point :=
  let z := (m * m + 2 * p384 - x - x') % p384
  some (z, (m * (x + p384 - z) + p384 - y) % p384)

/-- Addition of points. -/
def addPoint : Point → Point → Point
  | none, q => q
  | q, none => q
  | some (x, y), some (x', y') =>
    if x = x' then
      if (y + y') % p384 = 0 then none
      else chord ((3 * x * x + p384 - 3) * invMod p384 (2 * y % p384) % p384) x y x'
    else chord ((y' + p384 - y) * invMod p384 ((x' + p384 - x) % p384) % p384) x y x'

/-- A multiple of a point. -/
def mulPoint (k : Nat) (q : Nat × Nat) : Point :=
  (scalarBits k).foldl (fun a b => if b then addPoint (addPoint a a) (some q) else addPoint a a) none

/-- The signature verifies under a key: both parts lie in 1 to n - 1 and r is the x coordinate of z/s G + r/s Q. A key that is no
point of the curve verifies nothing (PRESUMED, log entry 154). -/
def ecdsaVerify (key : BitVec 768) (digest : BitVec 384) (sig : BitVec 768) : Bool :=
  let q := (key.toNat / 2 ^ 384, key.toNat % 2 ^ 384)
  let r := sig.toNat / 2 ^ 384
  let v := sig.toNat % 2 ^ 384
  let w := invMod n384 v
  onCurve q && decide (0 < r) && decide (r < n384) && decide (0 < v) && decide (v < n384) &&
    match addPoint (mulPoint (digest.toNat * w % n384) base384) (mulPoint (r * w % n384) q) with
    | some (x, _) => x % n384 = r
    | none => false

end Sys2Proof.Machine
end

