-- ==== Sys2Proof/Machine/Cal.lean ====
section
/-! DEFINITION. The commands and events of calibration (R218 to R237). -/

namespace Sys2Proof.Machine

/-- The lane temperature has moved by more than CAL_DT from a (R220, R222). -/
def State.moved (s : State) (a t : Int) : Bool := decide ((s.cal.dt.toNat : Int) < (t - a).natAbs)

/-- STALE (R232): a channel other than the spared one, in a crew of a lane with no free spare, was last calibrated hot at a
temperature more than 2 °C away. -/
def State.staleNow (s : State) (k : Nat) : Bool :=
  let l := s.calLane k
  l.noSpare && (List.range 16).any fun j =>
    (s.crewOf (16 * k + j)).isSome && !(l.spState = 3 && l.carries.toNat = j) && SMap.has l.lastHot j &&
    decide (32 < (l.now.toInt - SMap.get (fun _ => 0) l.lastHot j).natAbs)

/-- Deferred items are tried again, in item order, once the rest of the round has ended (R223). -/
def CalLane.retry (l : CalLane) : CalLane :=
  if l.inRound && l.todo.isEmpty && l.active.isEmpty then
    { l with todo := (List.range 19).filter l.deferred.contains, deferred := [] } else l

/-- The interpolated tables of every item of lane k at temperature t (R222). -/
def State.formTables (s : State) (k : Nat) (t : Int) : SMap Slot := (List.range 19).map fun i => (i, s.interpolated k i t)

/-- LANE_TEMP_READ (R220, R222, R223, R232, R255). The tables of all items are interpolated at once when the temperature has moved by
more than CAL_DT since they were last formed or a round started (DEDUCED, log entry 40). -/
def execLaneTempRead (lane : LaneId) (t : BitVec 16) (s : State) : Host.Outcome State Fault Refusal :=
  .next (inRun s fun s =>
    let k := lane.val
    let l := s.calLane k
    let s := s.updCalLane k fun l => { l with now := t }
    let s := if s.moved l.interpTemp t.toInt then
      let tables := s.formTables k t.toInt
      s.updCalLane k fun l => { l with interp := tables, interpTemp := t.toInt } else s
    let ok := s.hotOk
    let s := s.updCalLane k fun l => if ok then l.retry else l
    let s := if s.moved l.last.toInt t.toInt && s.cal.en then s.calTrigger k
      else if (s.calLane k).pending && !(s.calLane k).inRound then s.calTrigger k else s
    let stale := s.staleNow k
    let s := s.updCalLane k fun l => { l with stale := stale }
    if decide (1 < s.memberIds.length) && s.moved s.ez.surveyTemp s.hottest then s.wantSurvey else s)

/-- Channel j of lane k stands at a safe instant (R222): its crew's engine is not RUNNING, or stands at a granule
boundary. -/
def State.safeChan (s : State) (k j : Nat) : Bool :=
  match s.crewOf (16 * k + j) with
  | none => true
  | some e =>
    let r := s.eng e
    r.st ≠ .running || (match r.heat with | some h => h.atBoundary | none => true)

/-- The item stands at a safe instant (R222). -/
def State.safeItem (s : State) (k i : Nat) : Bool :=
  let l := s.calLane k
  if i < 16 then s.safeChan k i
  else if i = 16 then (if l.carries.toNat < 16 then s.safeChan k l.carries.toNat else true)
  else (s.tim (2 * k + (i - 17))).st ≠ .started

/-- An item's table no longer waits: it is installed, or a result of a round takes its place (R222). -/
def CalLane.tableDone (l : CalLane) (i : Nat) : CalLane := { l with interp := SMap.del l.interp i }

/-- INTERPOLATED_TABLE_INSTALL (R180, R222): the table formed at the move, whole. -/
def execInterpolatedTableInstall (lane : LaneId) (item : Fin 19) (s : State) : Host.Outcome State Fault Refusal :=
  .next (inRun s fun s =>
    let k := lane.val
    let i := item.val
    match SMap.get? (s.calLane k).interp i with
    | some x => if s.safeItem k i then (s.installItem k i x.t1 x.t2).updCalLane k fun l => l.tableDone i else s
    | none => s)

/-- An item is deferred (R223). -/
def CalLane.defer (l : CalLane) (i : Nat) : CalLane :=
  { l with deferred := l.deferred ++ [i], deferCnt := satInc l.deferCnt }

/-- The channel's timing sets and its applied level are copied into the spare (R224 step 1). -/
def State.copyToSpare (s : State) (k j : Nat) : State :=
  let sets := (s.tsets.filter fun e => e.1 / 256 = 16 * k + j).map fun e => (e.1 % 256, s.tset e.1)
  let a := (s.act (17 * k + j)).applied
  (s.updCalLane k fun l => { l with spTsets := sets, item := BitVec.ofNat 5 j, phase := 1 }).updAct (17 * k + 16)
    fun x => { x with applied := a }

/-- An item begins: in place, or as a handover (R218, R223, R224, R232). -/
def State.beginItem (s : State) (k i : Nat) (inPlace : Bool) : State :=
  let s := s.updCalLane k fun l => { l with active := l.active ++ [i] }
  if inPlace then s.updCalLane k fun l => l.showPlace else s.copyToSpare k i

/-- What can be started beside the items in progress (R218): the spare's item and those of the TIM units run concurrently. -/
def CalLane.canStart (l : CalLane) (i : Nat) : Bool := if i < 16 then l.active.isEmpty else l.active.all fun j => 16 ≤ j

/-- Take the next item of a hot round (R223, R232). -/
def State.nextItem (s : State) (k i : Nat) : State :=
  let l := s.calLane k
  let key := itemClaim k i
  if i < 16 && l.noSpare then
    if (s.crewOf (16 * k + i)).isSome then s.updCalLane k fun l => l.defer i else s.beginItem k i true
  else if s.claim key ≠ 31 then s.updCalLane k fun l => l.defer i
  else (s.setClaim key 16).beginItem k i (decide (16 ≤ i))

/-- Take the next item of a Survey run's round, in place (R234 step 7). An item that a context has claimed is left out. -/
def State.nextSurveyItem (s : State) (k i : Nat) : State :=
  let key := itemClaim k i
  if i < 16 then s.beginItem k i true
  else if s.claim key < 16 then s.updCalLane k fun l => { l with deferCnt := satInc l.deferCnt }
  else (s.setClaim key 16).beginItem k i true

/-- CAL_ITEM_START (R218, R223, R224, R232, R234). -/
def execCalItemStart (lane : LaneId) (s : State) : Host.Outcome State Fault Refusal :=
  .next (inRun s fun s =>
    let k := lane.val
    let l := s.calLane k
    match l.svTodo, l.todo with
    | some (i :: r), _ =>
      if s.cal.surveyBusy && !s.refSpan && l.canStart i then
        ((s.updCalLane k fun l => { l with svTodo := some r, svBegan := true }).nextSurveyItem k i).updCalLane k fun l =>
          l.countSurvey { l with svTodo := some [i] }
      else s
    | none, i :: r =>
      if l.inRound && s.hotOk && l.canStart i then ((s.updCalLane k fun l => { l with todo := r }).nextItem k i).checkRound k
      else s
    | _, _ => s)

/-- The instant from which a path shadows: the granule boundary at which the running crew stands, or now (R224). -/
def State.shadowStart (s : State) (c : Nat) : Option (Nat × Option Nat) :=
  match s.runningHeat c with
  | none => some (s.rnow, some (s.rnow + 64 * 512))
  | some h => if h.atBoundary then some (h.startAt h.next, none) else none

/-- HANDOVER_SHADOW_START (R224 steps 2 and 5). -/
def execHandoverShadowStart (lane : LaneId) (s : State) : Host.Outcome State Fault Refusal :=
  .next (inRun s fun s =>
    let k := lane.val
    let l := s.calLane k
    if (l.phase = 1 || l.phase = 4) && l.shadowFrom.isNone then
      match s.shadowStart (16 * k + l.item.toNat) with
      | some (t, e) =>
        s.setCalLane k (if l.phase = 1 then
          { l with phase := 2, carries := l.item, spState := 1, shadowFrom := some t, shadowEnd := e }
        else { l with shadowFrom := some t, shadowEnd := e })
      | none => s
    else s)

/-- Path `strobe` of channel j switches at regatta instant fu: what served it before is kept for the edges before that instant (R224 to
R226). -/
def State.noteSwitch (s : State) (k j : Nat) (strobe : Bool) (fu : Nat) (go : Bool) : State :=
  if !go then s
  else
    let p := s.pathOf (16 * k + j) strobe
    let w : PathSwitch := ⟨j, fu, p, s.tapsOf k p strobe⟩
    s.updCalLane k fun l => if strobe then { l with strobeWas := some w } else { l with driveWas := some w }

/-- Both paths carry the traffic on the spare: measurement follows (R11, R224 steps 3 and 4). -/
def CalLane.toSpare (l : CalLane) (d b : Bool) : CalLane :=
  let l := { l with driveSw := l.driveSw || d, strobeSw := l.strobeSw || b }
  if l.driveSw && l.strobeSw then
    { l with phase := 3, spState := 2, shadowFrom := none, shadowEnd := none, handovers := l.handovers + 1 }
  else l

/-- The table of a path before its return joins those kept until the return is complete (R219). -/
def State.keepTaps (s : State) (k j : Nat) (path : Bool) : State :=
  let t := s.tap (2 * (17 * k + j) + path.toNat)
  s.updCalLane k fun l => { l with kept := (path, t) :: l.kept }

/-- A path returns to its channel with its new tap table (R224 step 6). -/
def State.returnPath (s : State) (k j : Nat) (path go : Bool) : State :=
  if !go then s
  else
    let s := match (s.calLane k).newTaps with
      | some t => (s.keepTaps k j path).putTaps k j path (if path then t.2 else t.1)
      | none => s
    s.updCalLane k fun l => if path then { l with strobeSw := false } else { l with driveSw := false }

/-- The return is complete (R224 step 7): the item has passed, or was abandoned and the round resumes at it (R219). -/
def State.endReturn (s : State) (k j : Nat) : State :=
  let l := s.calLane k
  let s := s.updCalLane k fun l => { l with handovers := l.handovers + 1 }
  let s := (s.updCalLane k CalLane.freeSpare).leaveItem k j
  match l.newTaps with
  | some t =>
    let s := s.writeSlot k j t.1 t.2
    let s := s.updCalLane k fun l => l.tableDone j
    (s.calResult k j resPass).checkRound k
  | none => s.updCalLane k fun l => { l with todo := j :: l.todo }

/-- HANDOVER_SWITCH (R224 to R226) at regatta instant fu, once it has passed: each path that has not switched yet switches if fu is its
first switch instant after the shadow. -/
def execHandoverSwitch (lane : LaneId) (fu : Nat) (s : State) : Host.Outcome State Fault Refusal :=
  .next (inRun s fun s =>
    let k := lane.val
    let l := s.calLane k
    let j := l.item.toNat
    match s.shadowOver k with
    | none => s
    | some t =>
      if fu < t || s.rnow < fu then s
      else
        let d := l.toSwitch false && s.switchAt k j false t = some fu
        let b := l.toSwitch true && s.switchAt k j true t = some fu
        let s := (s.noteSwitch k j false fu d).noteSwitch k j true fu b
        if l.phase = 2 then s.updCalLane k fun l => l.toSpare d b
        else if l.phase = 4 then
          let s := (s.returnPath k j false d).returnPath k j true b
          if (s.calLane k).driveSw || (s.calLane k).strobeSw then s else s.endReturn k j
        else s)

/-- The positions P[t] of a vernier's taps (R228), each in units of 1/256 fu times `unit`, the hits of one UI: a UI spans 64 fu, and
the widths of the taps before t add up. They are kept as multiples, so that nothing is rounded. -/
structure TapPos where
  pos : List Int
  unit : Nat
deriving DecidableEq, Repr

/-- The positions that a histogram gives (R228; log entry 12). -/
def vernierPos (h : List Nat) : TapPos where
  pos := (List.range h.length).map fun t => 16384 * ((h.take t).foldl (· + ·) 0 : Nat)
  unit := Config.uiHits h + 1

/-- Q + f in the unit of the positions; Q in 1/256 fu. -/
def TapPos.goal (p : TapPos) (q : Int) (f : Nat) : Int := (q + 256 * (f : Int)) * (p.unit : Int)

/-- Entry f of the new tap table: the tap whose position is nearest to Q + f, ties to the lower (R228). -/
def nearestTap (p : List Int) (x : Int) : Nat :=
  (List.range 96).foldl (fun m t => if (p.getD t 0 - x).natAbs < (p.getD m 0 - x).natAbs then t else m) 0

/-- The new tap table of a vernier. -/
def newTable (p : TapPos) (q : Int) : List Nat := (List.range 64).map fun f => nearestTap p.pos (p.goal q f)

/-- The vernier passes (R228): the line reaches 63 fu beyond Q, and every entry lies within 1.5 fu. -/
def vernierPass (p : TapPos) (q : Int) : Bool :=
  decide (p.goal q 63 ≤ p.pos.getD 95 0) &&
  (List.range 64).all fun f => decide ((p.pos.getD (nearestTap p.pos (p.goal q f)) 0 - p.goal q f).natAbs ≤ 384 * p.unit)

/-- POS[t] of a bin table from the histogram (R179): below it lie c hits, of n in all. -/
def binPos (c h n : Nat) : Nat :=
  let x := (2 * c + h) * 8192
  if 2 * (x % n) = n then x / n + (Config.binTieUp x n).toNat
  else (2 * x + n) / (2 * n)

/-- The bin table of a histogram (R179). -/
def binTable (h : List Nat) : List Nat :=
  let n := h.foldl (· + ·) 0
  (List.range h.length).map fun t => binPos ((h.take t).foldl (· + ·) 0) (h.getD t 0) n

/-- The interpolator passes: no bin wider than 1,280 units (R179). -/
def binPass (h : List Nat) : Bool := h.all fun x => decide (16384 * x ≤ 1280 * h.foldl (· + ·) 0)

/-- Hits of a code-density test (R179, R228). -/
def codeHits : Nat := 2 ^ 20

/-- A histogram of n places. -/
def histOk (n : Nat) (h : List Nat) : Bool := h.length = n && h.foldl (· + ·) 0 = codeHits

/-- What a measurement gives: whether it passes, and the two tables. -/
def State.measure (s : State) (k i : Nat) (a b : List Nat) : Bool × List Nat × List Nat :=
  if i < 17 then
    let q := (s.interpolated k i (s.calLane k).last.toInt).q
    let p := vernierPos a
    let r := vernierPos b
    (vernierPass p q && vernierPass r q, newTable p q, newTable r q)
  else (binPass a && binPass b, binTable a, binTable b)

/-- A failing channel or spare item of a lane that has failed before (R230, R231). -/
def State.laneFault (s : State) (k i : Nat) : State :=
  let first := (s.calLane k).firstFail
  let s := s.updCalLane k fun l => { l with laneFault := true, fails := 2 }
  (s.calResult k i resLaneFault).umpEvent 49 (placeN 32 0 k ||| placeN 32 4 i ||| placeN 32 9 first)

/-- Channel j fails while the spare carries it: the spare keeps it (R230). -/
def State.spareChannel (s : State) (k j : Nat) : State :=
  let s := s.updCalLane k fun l => { l with
    spState := 3
    fails := 1
    firstFail := j
    active := l.active.filter fun i => i ≠ j
    item := 31
    phase := 0 }
  s.calResult k j resSpared

/-- An item in place ends (R228 to R230). In Survey no channel is spared and no slot is written (DEDUCED, log entry 41). -/
def State.endInPlace (s : State) (k i : Nat) (survey pass : Bool) (a b : List Nat) : State :=
  let s := s.leaveItem k i
  if pass then
    let s := s.installItem k i a b
    let s := if survey then s else s.writeSlot k i a b
    (s.updCalLane k fun l => l.tableDone i).calResult k i resPass
  else
    let s := s.updCalLane k fun l => { l with svFail := l.svFail || (survey && decide (i < 16)) }
    if 17 ≤ i then s.calResult k i resFail
    else if (s.calLane k).fails ≠ 0 then s.laneFault k i
    else if i = 16 then
      (s.updCalLane k fun l => { l with retired := true, fails := 1, firstFail := 16 }).calResult k i resFail
    else s.calResult k i resFail

/-- VERNIER_MEASUREMENT_DONE (R179, R228 to R232): histograms of the drive and strobe verniers, or of the start and stop
interpolators. -/
def execVernierMeasurementDone (lane : LaneId) (item : Fin 19) (h1 h2 : List Nat) (s : State) :
    Host.Outcome State Fault Refusal :=
  .next (inRun s fun s =>
    let k := lane.val
    let i := item.val
    let l := s.calLane k
    let n := if i < 17 then 96 else 32
    if !l.active.contains i || !histOk n h1 || !histOk n h2 then s
    else
      let (pass, a, b) := s.measure k i h1 h2
      if l.phase = 5 then
        (((s.endInPlace k i l.svTodo.isSome pass a b).updCalLane k fun x => x.countSurvey l).checkRound k).retryMaps
      else if l.phase = 3 then
        if pass then s.setCalLane k { l with phase := 4, newTaps := some (a, b) }
        else if l.fails ≠ 0 then (s.laneFault k i).updCalLane k fun l => { l with phase := 4, newTaps := none }
        else (s.spareChannel k i).checkRound k
      else s)

/-- SLOT_FLASH_SAVE (R221): at most once per minute. -/
def execSlotFlashSave (s : State) : Host.Outcome State Fault Refusal :=
  .next (inRun s fun s =>
    let due : Bool := match s.cal.savedAt with
      | some t => decide (t + 60000 * msTicks ≤ s.now)
      | none => true
    if s.cal.unsaved && due then
      { s with cal := { s.cal with
        unsaved := false
        flashSlots := s.cal.slots
        flashTemps := s.cal.temps
        savedAt := some s.now } }
    else s)

/-- CAL_REQUEST (R236). -/
def execCalRequest (h : Hdr) (lanes : BitVec 16) (s : State) : Host.Outcome State Fault Refusal :=
  .next (queueCmd s h 0x28 [(128, lanes.toNat)] true (fun r => bit r.perms 7) false fun s =>
    if s.mode ≠ .dock && s.mode ≠ .run && s.mode ≠ .hold then s.done h stNotReady
    else if s.refSpan then s.done h stRefAbsent
    else
      let r := (bitsOf 16 lanes).foldl (fun r k => s.requestRound r k) (⟨h.sq, h.cid, 0, 0, 0, 0⟩ : CalReq)
      let s := { s with cal := { s.cal with reqs := s.cal.reqs ++ [r] } }
      ((bitsOf 16 lanes).foldl State.calTrigger s).settleReqs)

/-- CAL_REQ (R236): as CAL_REQUEST, without a completion. -/
def execCalReq (v : Word32) (s : State) : Host.Outcome State Fault Refusal :=
  .next (whenReady s fun s => if s.hotOk then (bitsOf 16 v).foldl State.calTrigger s else s)

/-- CAL_DT_WRITE (R237). -/
def execCalDtWrite (v : Word32) (s : State) : Host.Outcome State Fault Refusal :=
  .next (whenReady s fun s =>
    let d := fldN v 0 8
    if 8 ≤ d && d ≤ 160 then { s with cal := { s.cal with dt := fld v 0 8 } }
    else { s with cal := { s.cal with refused := true } })

/-- A fitted DAC passes: its offset within 20 mV, its gain within 1 % (R235). -/
def fitOk (f : LevelFit) : Bool := decide (f.offset.natAbs ≤ 20000) && decide (f.gain.natAbs ≤ 10000)

/-- VREF_CAL lies within 25 mV of 2.500 V (R234 step 1); in uV. -/
def vrefOk (v : Int) : Bool := decide ((v - 2500000).natAbs ≤ 25000)

/-- A channel fails the level steps: a DAC of it lies outside its limits (R235). -/
def levelFails (fits : List LevelFit) (c : Nat) : Bool := fits.any fun f => f.chan.val = c && !fitOk f

/-- A passing channel takes the run's corrections, all in one step (R235). -/
def State.correct (s : State) (fits : List LevelFit) : State :=
  (fits.filter fun f => !levelFails fits f.chan.val).foldl (fun s f =>
    { s with cal := { s.cal with corr := SMap.put s.cal.corr (16 * f.chan.val + f.dac % 16) (f.offset, f.gain) } }) s

/-- The level results of a Survey run on lane k are sent (R235), and a lane ADC that passed takes its offset and gain (R234 step
2; the spec gives that step no limits, and the operand says which fail). -/
def State.surveyLane (s : State) (fits : List LevelFit) (adcFits : List (Int × Int)) (adcFail : BitVec 16) (k : Nat) : State :=
  let s := (List.range 16).foldl (fun s j => s.calPacket k j (if levelFails fits (16 * k + j) then resFail else resPass)) s
  let bad := adcFail.getLsbD k
  let s := match adcFits[k]?, bad with
    | some v, false => { s with cal := { s.cal with corr := SMap.put s.cal.corr (4096 + k) v } }
    | _, _ => s
  s.calResult k 19 (if bad then resFail else resPass)

/-- The steps of a Survey run are over (R234): a reference outside its limits ends the run at step 1, before step 7 has begun on
any lane; else step 7 is the last. -/
def State.surveyOver (s : State) (ok : Bool) : Bool :=
  (List.range 16).all fun k => if ok then (s.calLane k).surveyOver else !(s.calLane k).svBegan

/-- A Survey run is over: what its round left is released, and the MODE_SET completes (R234, R337). -/
def State.leaveSurvey (s : State) : State :=
  let s := s.calAbandon true
  let s := { s with cal := { s.cal with surveyBusy := false }, dev := { s.dev with base := .dock } }
  let d := s.calSurvey
  let s := (s.dev.waits.filter fun w => w.mode = 5).foldl (fun s w => s.finish w.sq w.cid stOk d) s
  State.settleModes { s with dev := { s.dev with waits := s.dev.waits.filter fun w => w.mode ≠ 5 } }

/-- SURVEY_RUN_END (R234, R235): `vref` is VREF_CAL in uV, `fits` what the level steps fitted. Where VREF_CAL lies outside its
limits nothing is applied. -/
def execSurveyRunEnd (vref : Int) (fits : List LevelFit) (adcFits : List (Int × Int)) (adcFail : BitVec 16) (s : State) :
    Host.Outcome State Fault Refusal :=
  .next (inRun s fun s =>
    let ok := vrefOk vref
    if !s.cal.surveyBusy || s.dev.base ≠ .survey || !s.surveyOver ok then s
    else
      let s := if ok then (List.range 16).foldl (fun s k => s.surveyLane fits adcFits adcFail k) (s.correct fits) else s
      let fail : BitVec 16 := maskOf 16 ((List.range 16).filter fun k =>
        ok && ((List.range 16).any (fun j => levelFails fits (16 * k + j)) || adcFail.getLsbD k || (s.calLane k).svFail))
      let s := { s with cal := { s.cal with
        laneFail := fail
        vrefBad := !ok
        surveyDone := true
        surveySeq := s.cal.surveySeq + 1 } }
      s.leaveSurvey)

end Sys2Proof.Machine
end

