-- ==== Sys2Proof/Machine/Aes.lean ====
section
/-! DEFINITION. AES-256-XTS (R163), as IEEE 1619 and FIPS 197 define it. Keys are held as numbers whose byte i is bits
[8i+7:8i], the data key first (PRESUMED, log entry 149). -/

namespace Sys2Proof.Machine

/-- Multiplication by x in GF(2^8) modulo x^8 + x^4 + x^3 + x + 1. -/
def gfTwice (a : Byte) : Byte := (a <<< 1) ^^^ (if a.getLsbD 7 then 0x1B else 0)

/-- Multiplication in GF(2^8): `n` bits of b, the lowest first. -/
def gfMulBits (b : Byte) : Nat → Byte → Byte
  | 0, _ => 0
  | n + 1, a => (if b.getLsbD (7 - n) then a else 0) ^^^ gfMulBits b n (gfTwice a)
def gfMul (a b : Byte) : Byte := gfMulBits b 8 a

/-- The inverse in GF(2^8), 0 for 0: the 254th power, as the square of the 127th. -/
def gfPow127 (a : Byte) : Nat → Byte
  | 0 => a
  | n + 1 => let p := gfPow127 a n; gfMul (gfMul p p) a
def gfInv (a : Byte) : Byte := let p := gfPow127 a 6; gfMul p p

/-- SubBytes of one byte. -/
def aesSub (a : Byte) : Byte :=
  let b := gfInv a
  b ^^^ b.rotateLeft 1 ^^^ b.rotateLeft 2 ^^^ b.rotateLeft 3 ^^^ b.rotateLeft 4 ^^^ 0x63

/-- XOR of two lists of bytes. -/
def xorBytes (a b : List Byte) : List Byte := (a.zip b).map fun x => x.1 ^^^ x.2

/-- ShiftRows: byte r of column c comes from column c + r. -/
def aesShift (s : List Byte) : List Byte := (List.range 16).map fun i => s.getD (4 * ((i / 4 + i % 4) % 4) + i % 4) 0

/-- MixColumns. -/
def aesMix (s : List Byte) : List Byte :=
  (List.range 16).map fun i =>
    let c := fun (k : Nat) => s.getD (4 * (i / 4) + (i + k) % 4) 0
    gfMul 2 (c 0) ^^^ gfMul 3 (c 1) ^^^ c 2 ^^^ c 3

/-- The words of the key schedule from word i on, n of them, after the last eight, newest first. -/
def aesExpand : (n i : Nat) → (rcon : Byte) → (prev : List (List Byte)) → List (List Byte)
  | 0, _, _, _ => []
  | n + 1, i, rcon, prev =>
    let t := prev.headD []
    let t := if i % 8 = 0 then xorBytes ((t.drop 1 ++ t.take 1).map aesSub) [rcon, 0, 0, 0]
      else if i % 8 = 4 then t.map aesSub else t
    let w := xorBytes (prev.getD 7 []) t
    w :: aesExpand n (i + 1) (if i % 8 = 0 then gfTwice rcon else rcon) (w :: prev.take 7)

/-- The fifteen round keys of a 32-byte key. -/
def aesKeys (key : List Byte) : List (List Byte) :=
  let w := (List.range 8).map fun i => (key.drop (4 * i)).take 4
  let all := (w ++ aesExpand 52 8 1 w.reverse).flatten
  (List.range 15).map fun r => (all.drop (16 * r)).take 16

/-- The rounds with these keys: the last does not mix columns. -/
def aesRounds : List (List Byte) → List Byte → List Byte
  | [], s => s
  | [k], s => xorBytes (aesShift (s.map aesSub)) k
  | k :: r, s => aesRounds r (xorBytes (aesMix (aesShift (s.map aesSub))) k)

/-- One block of 16 bytes under its round keys. -/
def aesBlock (keys : List (List Byte)) (s : List Byte) : List Byte := aesRounds keys.tail (xorBytes s (keys.headD []))

/-- The tweak of the next block: multiplication by the primitive element of GF(2^128), the first byte lowest. -/
def xtsNext (t : BitVec 128) : BitVec 128 := (t <<< 1) ^^^ (if t.getLsbD 127 then 0x87 else 0)

/-- The blocks of a data unit, n of them. -/
def xtsBlocks (keys : List (List Byte)) : Nat → BitVec 128 → List Byte → List Byte
  | 0, _, _ => []
  | n + 1, t, l =>
    let m := bytesLE 16 t.toNat
    xorBytes (aesBlock keys (xorBytes (l.take 16) m)) m ++ xtsBlocks keys n (xtsNext t) (l.drop 16)

/-- Encryption of a data unit of whole blocks: the tweak goes through the second key. -/
def aes256Xts (key : BitVec 512) (tweak : BitVec 128) (data : List Byte) : List Byte :=
  let b := bytesLE 64 key.toNat
  let t := aesBlock (aesKeys (b.drop 32)) (bytesLE 16 tweak.toNat)
  xtsBlocks (aesKeys (b.take 32)) (data.length / 16) (BitVec.ofNat 128 (leNat t)) data

end Sys2Proof.Machine
end

