-- ==== Sys2Proof/Machine/Capture.lean ====
section
/-! DEFINITION. Capture windows, the drain engine, the NVMe ports and the Fail Store (R139 to R170), and regions as host
software sees them (R108, R109, R116, R143, R268, R373). -/

namespace Sys2Proof.Machine

/-- 256 free bits (log entry 1). -/
def State.takeFree256 (s : State) : BitVec 256 × State :=
  let n := s.freeCount
  (place 256 0 (Config.freeBits n) ||| place 256 64 (Config.freeBits (n + 1)) ||| place 256 128 (Config.freeBits (n + 2)) |||
    place 256 192 (Config.freeBits (n + 3)), { s with freeCount := n + 4 })

/-- A bitmap update lands (R141, R157): the bits are ORed into the word. The first descriptor content becomes the window's
geometry, and other content sets GEOM_MIXED. After an uncorrectable error what stood in the word is a free value. -/
def State.landBitmap (s : State) (i word : Nat) (bits : BitVec 256) (g : Geom) (ue : Bool) (hbm : Nat) : State :=
  let (old, s) : BitVec 256 × State :=
    if ue then s.takeFree256 else (BitVec.ofNat 256 (leNat (s.regionBytes i (32 * word) 32)), s)
  let s := s.regionWrite i (32 * word) (bytesLE 32 (old ||| bits).toNat)
  let s := s.updRegion i fun r => match r.geom with
    | none => { r with geom := some g }
    | some x => { r with geomMixed := r.geomMixed || x ≠ g }
  if ue then
    let s := { s with fc := { s.fc with hbmUe := satInc s.fc.hbmUe } }
    s.umpEvent 44 (placeN 32 0 hbm)
  else s

/-- The first capture write of an engine, and the writes without it. -/
def takeWrite (e : Nat) : List CapWrite → Option (CapWrite × List CapWrite)
  | [] => none
  | w :: r => if w.engine = e then some (w, r) else (takeWrite e r).map fun p => (p.1, w :: p.2)

/-- The HBM channels of the fail partition and of the shared one (R19). -/
def failChannel (n : Nat) : Bool := (8 ≤ n && n ≤ 14) || (24 ≤ n && n ≤ 30)
def sharedChannel (n : Nat) : Bool := n = 15 || n = 31

/-- CAPTURE_WRITE_LANDED (R19, R141, R142, R157): a capture write lands on a channel of the fail partition, and on no other. -/
def execCaptureWriteLanded (e : EngineId) (ue : Bool) (hbm : Fin 32) (s : State) : Host.Outcome State Fault Refusal :=
  .next (inRun s fun s =>
    if !failChannel hbm.val then s else
    match takeWrite e.val s.fc.queue with
    | none => s
    | some (w, rest) =>
      let s := { s with fc := { s.fc with queue := rest } }
      if (s.region w.region).gen ≠ w.gen then s
      else
        match w.data with
        | .bitmap a bits g => s.landBitmap w.region a bits g ue hbm.val
        | .bytes a bs => s.regionWrite w.region a bs)

/-- RAW_WINDOW_END (R140, R158): at the granule boundary at which its G granules have been played. -/
def execRawWindowEnd (e : EngineId) (s : State) : Host.Outcome State Fault Refusal :=
  .next (inRun s fun s => s.rawReturn e.val)

/-- FC_CNT_CLR (R139). -/
def execFcCntClr (v : Word32) (s : State) : Host.Outcome State Fault Refusal :=
  .next (whenReady s fun s =>
    (bitsOf 16 v).foldl (fun s k => (List.range 16).foldl (fun s j => s.updChan (16 * k + j) fun c => c.clearFails s.ckC) s)
      s)

/-- FC_DRAIN_REQ (R161). -/
def execFcDrainReq (v : Word32) (s : State) : Host.Outcome State Fault Refusal :=
  .next (whenReady s fun s =>
    let r := s.region (handleIdx v)
    if s.liveRegion v && r.kind = .capture && r.win = .filled && !r.drainPending then s.markDrain (handleIdx v)
    else { s with fc := { s.fc with drainRefused := true } })

/-- A descriptor is in use: a heat in progress is in BITMAP mode with it (R156; log entry 36). -/
def State.geomInUse (s : State) (g : Nat) : Bool :=
  s.anyEngine fun r => match r.heat with
    | some h => r.captMode = 2 && h.captImm.toNat = g
    | none => false

/-- Bits of the source of a field (R156). -/
def geomSrcBits (i : Nat) : Nat := if i ≤ 1 then 24 else if i = 2 then 8 else 48

/-- A descriptor is valid (R156). -/
def Geom.valid (g : Geom) : Bool :=
  ((List.range 4).all fun i =>
    g.width i ≤ 24 && (g.width i = 0 || g.lsb i + g.width i ≤ geomSrcBits (g.src i))) &&
  g.b ≤ 8 && g.b + (List.range 4).foldl (fun a i => a + g.width i) 0 ≤ 40

/-- Write a register of a descriptor: equal contents are equal data. -/
def Geom.write (g : Geom) (q : GeomReg) (v : Word32) : Geom :=
  match q with
  | .fields hi => { g with fields := setHalf g.fields hi (v &&& 0x1FFF1FFF) }
  | .cfg => { g with cfg := v &&& 0xFF0F }
  | .dbi w => { g with dbi := if v = BitVec.allOnes 32 then SMap.del g.dbi w.val else SMap.put g.dbi w.val v }

/-- FC_GEOM_WRITE (R156). -/
def execFcGeomWrite (g : GroupId) (q : GeomReg) (v : Word32) (s : State) : Host.Outcome State Fault Refusal :=
  .next (whenReady s fun s =>
    if s.geomInUse g.val then { s with fc := { s.fc with ignored := true } }
    else
      let x := (s.geom g.val).write q v
      let bad := !x.valid
      let past : GeomPast := ⟨g.val, s.ckF, s.geom g.val, bad, bad && !s.fc.refused⟩
      let s := { s with fc := { s.fc with
        refused := s.fc.refused || bad
        geomPast := (past :: s.fc.geomPast).take histKeep } }
      if bad then s else s.setGeom g.val x)

/-- Keys can be used (R331). -/
def State.keysUsable (s : State) : Bool := !s.bh.unlocked && s.bh.lifecycle ≠ 2

/-- The generation of a context's Fail Store key, 0 for none. -/
def State.keyOf (s : State) (c : Nat) : Nat := SMap.get (fun _ => 0) s.bh.keys c

/-- A context has a usable key (R164). -/
def State.hasKey (s : State) (c : Nat) : Bool := s.keysUsable && s.keyOf c ≠ 0

/-- Blocks of 4 KiB, bytes of a presence map, and extents of 1 MiB (R162, R166; the map is stored in whole blocks: DEDUCED
from the notice of spec/16, log entry 37). -/
def blocksOf (bytes : Nat) : Nat := ceilDiv bytes 4096
def mapBytes (blocks : Nat) : Nat := 4096 * ceilDiv (ceilDiv blocks 8) 4096
def extentBytes : Nat := 1048576
def storedBytes (window stored : Nat) : Nat := 4096 + mapBytes (blocksOf window) + 4096 * stored
def extentsOf (bytes : Nat) : Nat := ceilDiv bytes extentBytes

/-- Bytes of drive k that objects take, freed ones that a merge still reads among them (R166, R170). -/
def State.driveUsed (s : State) (k : Nat) : Nat :=
  extentBytes * s.objs.foldl (fun n o => n + (o.2.extents.filter fun d => d = k).length) 0

/-- Free bytes of drive k, 0 unless it is ONLINE (R166, R171). -/
def State.driveFree (s : State) (k : Nat) : Nat := if (s.nv k).state = 2 then (s.nv k).cap - s.driveUsed k else 0

/-- Free space of all drives in whole extents, each of which lies on one drive (R166). -/
def State.extentsFree (s : State) : Nat := (List.range 4).foldl (fun a k => a + s.driveFree k / extentBytes) 0

/-- The ONLINE drive with the most free space once the extents of l have been placed, the lower port on a tie (R166). -/
def State.bestDrive (s : State) (l : List Nat) : Nat :=
  let free (k : Nat) : Nat := s.driveFree k - extentBytes * (l.filter fun d => d = k).length
  (List.range 4).foldl (fun b k => if free b < free k then k else b) 0

/-- The drives of n extents, placed one by one (R166). -/
def State.placeExtents (s : State) : Nat → List Nat
  | 0 => []
  | n + 1 =>
    let l := s.placeExtents n
    l ++ [s.bestDrive l]

/-- The lowest index that p leaves free, below n. -/
def lowestFree (n : Nat) (p : Nat → Bool) : Option Nat := (List.range n).find? p

/-- The index the device takes for a new handle: its proposal where that is free, otherwise the lowest free one (log
entry 11). -/
def pickIndex (prop : Nat) (bound : Nat) (used : Nat → Bool) : Option Nat :=
  if !used prop then some prop else lowestFree (bound + 1) fun i => !used i

/-- An index of the Fail Store is taken: live, or with extents a merge still reads. -/
def State.objUsed (s : State) (i : Nat) : Bool := (s.obj i).live || !(s.obj i).extents.isEmpty

/-- Allocate an object that is being written. -/
def State.newObj (s : State) (o : FsObj) : State × Option Nat :=
  let prop := (Config.handleIndex s.freeCount).toNat
  let s := { s with freeCount := s.freeCount + 1 }
  match pickIndex prop s.objs.length s.objUsed with
  | some i =>
    if i < 2 ^ 20 then (s.setObj i { o with live := true, gen := (s.obj i).gen, storedGen := (s.obj i).gen, writing := true }, some i) else (s, none)
  | none => (s, none)

/-- An object leaves: its handle becomes stale (R167). -/
def State.dropObj (s : State) (i : Nat) (keep : Bool) : State :=
  s.updObj i fun o => { o with
    live := false
    gen := nextGen o.gen
    writing := false
    extents := if keep then o.extents else []
    blocks := if keep then o.blocks else [] }

/-- The handle of object i. -/
def State.objHandle (s : State) (i : Nat) : Word32 := handleOf i (s.obj i).gen

/-- Word 2 of a drain notice (R165). -/
def noticeWord (st : Byte) (kind : Byte) (mixed : Bool) : Word32 := place 32 0 st ||| place 32 8 kind ||| placeB 32 16 mixed

/-- A drain ends: its notice, FC_DRAIN_LAST, and an event unless it ended OK (R165, R298). -/
def State.drainNotice (s : State) (i : Nat) (obj : Word32) (st : Byte) (stored : Nat) : State :=
  let r := s.region i
  let hd := handleOf i r.gen
  let w2 := noticeWord st r.kindCode r.geomMixed
  let s := s.logSend 6 0 ([hd, obj, w2] ++ words64 (BitVec.ofNat 64 stored) ++ words64 (BitVec.ofNat 64 r.size))
  let s := { s with fc := { s.fc with drainLast := place 96 0 hd ||| place 96 32 obj ||| place 96 64 w2 } }
  if st = stOk then s else s.umpEvent 45 w2

/-- The oldest window that asks to be drained, and its place in the order of work (R161). -/
def State.oldestDrain (s : State) : Option (Nat × Nat) :=
  s.regions.foldl (fun (m : Option (Nat × Nat)) r =>
    if r.2.live && r.2.win = .filled && r.2.drainPending then
      match m with
      | none => some (r.1, r.2.drainSeq)
      | some x => if r.2.drainSeq < x.2 then some (r.1, r.2.drainSeq) else m
    else m) none

/-- A job's place in the order of work. -/
def Job.seq : Job → Nat
  | .merge n _ _ _ _ => n
  | .drain _ _ => 0

/-- A merge whose turn it is: no window has asked to be drained before it (R169). -/
def State.mergeTurn (s : State) : Option (Job × List Job) :=
  match s.fc.merges, s.oldestDrain with
  | [], _ => none
  | j :: r, none => some (j, r)
  | j :: r, some d => if j.seq < d.2 then some (j, r) else none

/-- The drain engine has ended a job: it goes on with a merge where that is next (R169). -/
def State.nextJob (s : State) : State :=
  match s.mergeTurn with
  | none => { s with fc := { s.fc with job := none } }
  | some (j, r) => { s with fc := { s.fc with job := some j, merges := r } }

/-- A drain in progress ends without an object; its window is FILLED again (R164). FC_DRAIN_BYTES does not count what it had
written (DESIGN CHOICE, log entry 150). -/
def State.failDrain (s : State) (i obj : Nat) (st : Byte) : State :=
  let s := s.dropObj obj false
  let s := s.drainNotice i 0 st 0
  let s := s.updRegion i fun r => { r with win := .filled, drainPending := false }
  s.nextJob

/-- The object a drain of region i makes (R168). Where no BITMAP update gave the window a geometry, its copies are those of a
descriptor after reset (DESIGN CHOICE, log entry 119). -/
def State.drainObj (s : State) (i : Nat) : FsObj :=
  let r := s.region i
  { FsObj.reset with
    owner := r.owner
    kind := if r.kindCode = 3 then 4 else r.kindCode
    geomMixed := r.geomMixed
    partialSrc := r.partialSrc
    windowBytes := r.size
    wbase := r.wbase
    regattaId := s.ez.id.toNat
    engine := r.lastEngine
    tag := r.lastTag
    created := s.rtick
    geom := r.geom.getD Geom.reset
    keyGen := s.keyOf r.owner }

/-- Extents a window's reservation takes (R166). -/
def reservation (window : Nat) : Nat := extentsOf (storedBytes window (blocksOf window))

/-- DRAIN_START (R161, R162, R164). -/
def execDrainStart (s : State) : Host.Outcome State Fault Refusal :=
  .next (inRun s fun s =>
    match s.fc.job, s.oldestDrain with
    | none, some (i, _) =>
      let r := s.region i
      let stop := fun (s : State) (st : Byte) =>
        ((s.drainNotice i 0 st 0).updRegion i fun r => { r with drainPending := false }).nextJob
      if !s.hasKey r.owner then stop s stDenied
      else if s.extentsFree < reservation r.size then stop s stRefusedCapacity
      else
        let o := s.drainObj i
        match s.newObj o with
        | (s, none) => stop s stRefusedCapacity
        | (s, some j) =>
          let l := s.placeExtents (reservation r.size)
          let s := s.updObj j fun o => { o with extents := l }
          let s := s.updRegion i fun r => { r with win := .draining, drainPending := false }
          { s with fc := { s.fc with job := some (.drain i j) } }
    | _, _ => s)

/-- The tweak of the block at a position of an object's stored sequence (R163). -/
def xtsTweak (pos i : Nat) (gen : BitVec 12) : BitVec 128 := placeN 128 0 pos ||| placeN 128 64 i ||| place 128 84 gen

/-- The 4 KiB blocks of a window image that hold a non-zero byte, ascending, each with its bytes (R162). -/
def blocksOfImage (m : Memory) : List (Nat × Memory) :=
  m.foldr (fun c l =>
    match l with
    | (b, d) :: r => if c.1 / 4096 = b then (b, (c.1 % 4096, c.2) :: d) :: r else (c.1 / 4096, [(c.1 % 4096, c.2)]) :: l
    | [] => [(c.1 / 4096, [(c.1 % 4096, c.2)])]) []

/-- The block at position pos of object j, encrypted under its owner's key (R163). -/
def State.encrypt (s : State) (j pos : Nat) (data : Memory) : StoredBlock :=
  ⟨pos, (s.obj j).keyGen, xtsTweak pos j (s.obj j).gen, data⟩

/-- The window image of an object, decrypted (R167): a block that another key or tweak encrypted gives free bytes. The generation
is the one the object was written under: a merge goes on reading a source that has been freed since (R170). -/
def State.blockByte (s : State) (j b a : Nat) : Byte :=
  let o := s.obj j
  match o.blocks.find? fun x => x.1 = b with
  | none => 0
  | some x =>
    if x.2.key = s.keyOf o.owner && x.2.tweak = xtsTweak x.2.pos j o.storedGen then Memory.read 0 x.2.data a
    else fld (Config.freeBits (s.freeCount + a)) 0 8

/-- What a drive receives for a block: its encryption (R163). -/
def State.driveBytes (s : State) (x : StoredBlock) : List Byte :=
  aes256Xts (SMap.get (fun _ => 0) s.bh.keyBits x.key) x.tweak (x.data.readN 0 0 4096)

/-- The blocks are written to the drives of the object's extents, 256 to an extent (R162, R166). -/
def State.writeBlocks (s : State) (j : Nat) (l : List StoredBlock) : State :=
  s.sends (l.map fun x => .nvmeWrite ((s.obj j).extents.getD (x.pos / 256) 0) (s.driveBytes x))

/-- Every drive written is flushed, once the last block is on its way (R162). -/
def State.flushDrives (s : State) (j : Nat) : State :=
  s.sends (((List.range 4).filter fun k => (s.obj j).extents.contains k).map .nvmeFlush)

/-- A list of bytes as a memory. -/
def memOf (l : List Byte) : Memory := Memory.writeN 0 [] 0 l

/-- The presence map (R162): bit i for block i. -/
def presenceMap (l : List Nat) : Memory :=
  l.foldl (fun m i => Memory.write 0 m (i / 8) (setBit (Memory.read 0 m (i / 8)) (i % 8) true)) []

/-- The blocks of the presence map, n in all: empty ones too are written. -/
def mapBlocks (m : Memory) (n : Nat) : List Memory :=
  (List.range n).map fun b => (m.filter fun c => c.1 / 4096 = b).map fun c => (c.1 % 4096, c.2)

/-- The 4 KiB header of an object, as far as it holds values (R168). -/
def State.objHeader (s : State) (j : Nat) : List Byte :=
  let o := s.obj j
  let flags := o.geomMixed.toNat + 2 * o.partialSrc.toNat
  let a := bytesLE 4 0xD14F5001 ++ bytesLE 2 1 ++ bytesLE 2 4096 ++ bytesLE 4 (s.objHandle j).toNat ++ bytesLE 1 o.owner ++
    [o.kind] ++ bytesLE 2 flags ++ bytesLE 8 o.windowBytes ++ bytesLE 4 o.storedBlocks ++ bytesLE 4 o.wbase.toNat ++
    bytesLE 1 o.regattaId ++ bytesLE 1 o.engine ++ bytesLE 1 o.sources ++ [0] ++ bytesLE 4 o.tag.toNat ++ bytesLE 8 o.created ++
    List.replicate 16 0 ++ bytesLE 8 o.geom.fields.toNat ++ bytesLE 4 o.geom.cfg.toNat ++ List.replicate 4 0
  a ++ (List.range 256).map fun c => BitVec.ofNat 8 (o.geom.dbiOf c)

/-- An object's blocks, presence map and header are written, in this order of positions (DEDUCED from R162, log entry 120), and the
drives written are flushed. It keeps the extents of what it stores; the rest of the reservation is released (R162). -/
def State.settleObj (s : State) (j : Nat) (image : Memory) : State :=
  let o := s.obj j
  let l := blocksOfImage image
  let n := l.length
  let keep := extentsOf (storedBytes o.windowBytes n)
  let s := s.updObj j fun o => { o with storedBlocks := n, writing := false, extents := o.extents.take keep }
  let stored := (l.zipIdx 0).map fun x => (x.1.1, s.encrypt j x.2 x.1.2)
  let maps := mapBlocks (presenceMap (l.map (·.1))) (mapBytes (blocksOf o.windowBytes) / 4096)
  let s := s.updObj j fun o => { o with blocks := stored }
  let s := s.writeBlocks j (stored.map (·.2) ++ (maps.zipIdx n).map (fun x => s.encrypt j x.2 x.1) ++
    [s.encrypt j (n + maps.length) (memOf (s.objHeader j))])
  let s := s.flushDrives j
  { s with fc := { s.fc with drainBytes := s.fc.drainBytes + BitVec.ofNat 64 (storedBytes o.windowBytes n) } }

/-- A window after its drain: every byte zero, no geometry, no captured kind (R143, R157, R165). -/
def Region.cleaned (r : Region) : Region :=
  { r with
    win := .clean
    drainPending := false
    geom := none
    geomMixed := false
    partialSrc := false
    kindCode := 3
    wbase := 0
    lastEngine := 0
    lastTag := 0
    mem := [] }

/-- DRAIN_DONE (R162, R165). -/
def execDrainDone (s : State) : Host.Outcome State Fault Refusal :=
  .next (inRun s fun s =>
    match s.fc.job with
    | some (.drain i j) =>
      let s := s.settleObj j (s.region i).mem
      let o := s.obj j
      let s := s.drainNotice i (s.objHandle j) stOk (storedBytes o.windowBytes o.storedBlocks)
      (s.updRegion i Region.cleaned).nextJob
    | _ => s)

/-- Byte n of the logical image (R167). -/
def State.imageByte (s : State) (j n : Nat) : Byte :=
  if n < 4096 then (s.objHeader j).getD n 0 else s.blockByte j ((n - 4096) / 4096) ((n - 4096) % 4096)

/-- The common checks of the Fail Store commands on one handle (R170). -/
def State.objCheck (s : State) (hd : Word32) (ctx : Nat) : Byte :=
  if !s.liveObj hd then stStaleHandle
  else if (s.obj (handleIdx hd)).owner ≠ ctx then stNotOwner
  else if (s.obj (handleIdx hd)).writing then stNotReady
  else stOk

/-- The permission FAILSTORE (R324). -/
def failstoreRec : EntryRec → Bool := fun r => bit r.perms 8

/-- The key that wrote an object still exists and can be used (R328). -/
def State.objReadable (s : State) (i : Nat) : Bool :=
  s.keysUsable && (s.obj i).keyGen ≠ 0 && s.keyOf (s.obj i).owner = (s.obj i).keyGen

/-- FAILSTORE_READ (R169, R170): `bad` is the first byte of the image that no drive could return. Where the range also passes the
end, LENGTH is that up to the end, and the bytes from `bad` on are free. -/
def execFailstoreRead (h : Hdr) (handle : Word32) (offset length : Word64) (bad : Option Nat) (s : State) :
    Host.Outcome State Fault Refusal :=
  .next (queueCmd s h 0x30 [(128, handle.toNat), (192, offset.toNat), (256, length.toNat)] true failstoreRec false fun s =>
    let i := handleIdx handle
    let st := s.objCheck handle (ctxOfQueue h.sq)
    if st ≠ stOk then s.done h st
    else if !s.objReadable i then s.done h stDenied
    else
      let o := offset.toNat
      let all := length.toNat
      let size := 4096 + (s.obj i).windowBytes
      let good := match bad with
        | some b => b - o
        | none => all
      let n := if size < o + all then size - o else min all good
      let (junk, s) := s.freeBytes (n - good)
      let s := s.send (.hostWrite h.dptr.toNat ((List.range (min n good)).map (fun k => s.imageByte i (o + k)) ++ junk))
      s.doneXfer h (if n < all then stPartial else stOk) n (n < all) (.out n))

/-- The sources of a merge are compatible (R169). -/
def State.mergeOk (s : State) (l : List Nat) : Bool :=
  noDup l &&
  match l with
  | [] => false
  | a :: _ =>
    let x := s.obj a
    l.all fun i =>
      let o := s.obj i
      (o.kind = 1 || o.kind = 3) && !o.geomMixed && o.windowBytes = x.windowBytes && o.wbase = x.wbase && o.geom = x.geom

/-- OR of two window images: every byte of b is ORed into a. -/
def orImage (a b : Memory) : Memory :=
  b.foldl (fun m c => Memory.write 0 m c.1 (Memory.read 0 m c.1 ||| c.2)) a

/-- The window image of an object, decrypted. -/
def State.plainImage (s : State) (j : Nat) : Memory :=
  (s.obj j).blocks.flatMap fun b => b.2.data.map fun c => (4096 * b.1 + c.1, s.blockByte j b.1 c.1)

/-- The object a merge makes (R168, R169). Its ENGINE is that of the first source, PARTIAL_SOURCE is set if any source has it,
HEAT_TAG is 0 and CREATED the instant at which the command is accepted (DESIGN CHOICE, log entry 121). -/
def State.mergeObj (s : State) (ctx : Nat) (l : List Nat) : FsObj :=
  let x := s.obj (l.headD 0)
  { FsObj.reset with
    owner := ctx
    kind := 3
    partialSrc := l.any fun i => (s.obj i).partialSrc
    windowBytes := x.windowBytes
    wbase := x.wbase
    regattaId := s.ez.id.toNat
    engine := x.engine
    sources := l.length
    tag := 0
    created := s.rtick
    geom := x.geom
    keyGen := s.keyOf ctx }

/-- Detail of source 45 for a merge: its status; no window kind is stated for a merge, so that field is free (R298). -/
def State.mergeEvent (s : State) (st : Byte) : State :=
  let (v, s) := s.takeFree
  s.umpEvent 45 (noticeWord st (fld v 0 8) false)

/-- The fields of a FAILSTORE_MERGE entry (R277). -/
def mergeFields (n : Byte) (handles : List Word32) : List (Nat × Nat) :=
  (128, n.toNat) :: (List.range 8).map fun i => (160 + 32 * i, (handles.getD i 0).toNat)

/-- FAILSTORE_MERGE (R169, R170): an accepted merge is put behind the work of the drain engine. -/
def execFailstoreMerge (h : Hdr) (n : Byte) (handles : List Word32) (s : State) : Host.Outcome State Fault Refusal :=
  .next (queueCmd s h 0x31 (mergeFields n handles)
    (2 ≤ n.toNat && n.toNat ≤ 8 && handles.length = 8 && (handles.drop n.toNat).all fun x => x = 0) failstoreRec false
    fun s =>
    let ctx := ctxOfQueue h.sq
    let hs := handles.take n.toNat
    let l := hs.map handleIdx
    let sts := hs.map fun x => s.objCheck x ctx
    let need := reservation (s.obj (l.headD 0)).windowBytes
    if sts.contains stStaleHandle then s.done h stStaleHandle
    else if sts.contains stNotOwner then s.done h stNotOwner
    else if sts.contains stNotReady then s.done h stNotReady
    else if !s.mergeOk l then s.done h stBadCommand
    else if !(l.all s.objReadable && s.hasKey ctx) then s.done h stDenied
    else if s.extentsFree < need then (s.mergeEvent stRefusedCapacity).done h stRefusedCapacity
    else
      match s.newObj (s.mergeObj ctx l) with
      | (s, none) => (s.mergeEvent stRefusedCapacity).done h stRefusedCapacity
      | (s, some j) =>
        let ex := s.placeExtents need
        let s := s.updObj j fun o => { o with extents := ex }
        let job := Job.merge s.fc.drainSeq h.sq h.cid j l
        let s := { s with fc := { s.fc with drainSeq := s.fc.drainSeq + 1, merges := s.fc.merges ++ [job] } }
        if s.fc.job.isNone then s.nextJob else s)

/-- An object is a source of a merge in progress or waiting. -/
def State.beingRead (s : State) (i : Nat) : Bool :=
  ((s.fc.job.toList) ++ s.fc.merges).any fun j => match j with
    | .merge _ _ _ _ l => l.contains i
    | .drain _ _ => false

/-- Sources freed while a merge read them give their blocks back once it has ended (R170). -/
def State.releaseSources (s : State) (l : List Nat) : State :=
  l.foldl (fun s i =>
    if (s.obj i).live || s.beingRead i then s
    else s.updObj i fun o => { o with extents := [], blocks := [] }) s

/-- A merge ends without its object: the event, the sources and the next job. -/
def State.failMerge (s : State) (sq : QueueId) (cid : BitVec 16) (j : Nat) (l : List Nat) (st : Byte) : State :=
  let s := (s.dropObj j false).finish sq cid st
  let mine (x : Job) : Bool := match x with
    | .merge _ _ _ o _ => o = j
    | .drain _ _ => false
  let s := if s.fc.job.any mine then s.nextJob else { s with fc := { s.fc with merges := s.fc.merges.filter fun x => !mine x } }
  (s.releaseSources l).mergeEvent st

/-- MERGE_DONE (R169, R170): a block that could not be read ends it ABORTED. -/
def execMergeDone (bad : Bool) (s : State) : Host.Outcome State Fault Refusal :=
  .next (inRun s fun s =>
    match s.fc.job with
    | some (.merge _ sq cid j l) =>
      if bad then s.failMerge sq cid j l stAborted
      else
        let s := s.settleObj j (l.foldl (fun m i => orImage m (s.plainImage i)) [])
        let s := (s.finish sq cid stOk 0 ((s.objHandle j).setWidth 64)).nextJob
        s.releaseSources l
    | _ => s)

/-- The writer of an object stops (R164, R170). -/
def State.stopWriter (s : State) (i : Nat) (st : Byte) : State :=
  match (s.fc.job.toList ++ s.fc.merges).find? fun j => match j with
    | .merge _ _ _ o _ => o = i
    | .drain _ o => o = i with
  | some (.drain w o) => s.failDrain w o st
  | some (.merge _ sq cid o l) => s.failMerge sq cid o l st
  | none => s

/-- A software-fault event of a command (R298, source 57). -/
def State.softFault (s : State) (h : Hdr) (opc st : Byte) : State :=
  s.umpEvent 57 (place 32 0 st ||| placeN 32 8 (ctxOfQueue h.sq) ||| place 32 16 opc ||| placeN 32 24 h.sq.val)

/-- FAILSTORE_FREE (R169, R170). -/
def execFailstoreFree (h : Hdr) (handle : Word32) (s : State) : Host.Outcome State Fault Refusal :=
  .next (queueCmd s h 0x32 [(128, handle.toNat)] true failstoreRec false fun s =>
    let i := handleIdx handle
    let st := s.objCheck handle (ctxOfQueue h.sq)
    if st = stStaleHandle || st = stNotOwner then (s.softFault h 0x32 st).done h st
    else if st = stNotReady then (s.stopWriter i stCancelled).done h stOk
    else (s.dropObj i (s.beingRead i)).done h stOk)

/-- NVME_DRIVE_ERROR (R164, R166, R298). FC_NVk_CAP of a drive that went offline keeps its value (DESIGN CHOICE, log entry 150), and
a merge that is writing goes on: R164 ends drains alone (DESIGN CHOICE, log entry 151). -/
def execNvmeDriveError (k : Fin 4) (status : BitVec 16) (offline : Bool) (s : State) : Host.Outcome State Fault Refusal :=
  .next (inRun s fun s =>
    let s := s.updNv k.val fun d => { d with
      errors := satInc d.errors
      state := if offline then 4 else d.state
      speed := if offline then 0 else d.speed
      width := if offline then 0 else d.width }
    let s := s.umpEvent (40 + k.val) (place 32 0 status ||| place 32 16 (s.nv k.val).state)
    match s.fc.job with
    | some (.drain i j) => s.failDrain i j stAborted
    | _ => s)

/-- Bytes of a drive that are used at most (R166). -/
def driveMax : Nat := 16000000000000

/-- NVME_PORT_ONLINE (R166). -/
def execNvmePortOnline (k : Fin 4) (usable : Bool) (bytes : Word64) (speed : BitVec 4) (width : BitVec 3) (s : State) :
    Host.Outcome State Fault Refusal :=
  .next (inRun s fun s => s.updNv k.val fun d => { d with
    state := if usable then 2 else 3
    speed := speed
    width := width
    cap := if usable then min bytes.toNat driveMax else 0 })

/-- The NVk_PERST_N output (R360): low until the port has trained, and high impedance in Stop. -/
def State.nvPerstN (s : State) (k : Nat) : Option Bool :=
  if s.dev.base = .stop then none else some ((s.nv k).state ≠ 0 && (s.nv k).state ≠ 1)

end Sys2Proof.Machine
end

