-- ==== Sys2Proof/Machine/HostCmds.lean ====
section
/-! DEFINITION. Crew maps, claims, locks, barriers and aborts as commands (R279, R280, R289, R291 to R295). -/

namespace Sys2Proof.Machine

/-- CREW_MAP (R13, R58, R232, R279). -/
def execCrewMap (h : Hdr) (engine coupling : Byte) (mask : ChanMask) (s : State) : Host.Outcome State Fault Refusal :=
  .next (queueCmd s h 0x12 [(128, engine.toNat), (136, coupling.toNat), (256, mask.toNat)] (engine.toNat < 128)
      (engineRec engine) false fun s =>
    s.crewMap ⟨h.sq, h.cid, engine.toNat, coupling, mask⟩)

/-- Resources of a kind (R291). -/
def kindCount (k : Nat) : Nat := if k = 0 then 256 else if k = 2 then 32 else 16

/-- The claim keys of a range. -/
def claimRange (kind first count : Nat) : List Nat := (List.range count).map fun i => 256 * kind + first + i

/-- CLAIM of trigger groups needs them in TRIGGERS (R324). -/
def claimRec (kind : Byte) (first count : BitVec 16) : EntryRec → Bool := fun r =>
  kind ≠ 4 || (List.range 16).all fun g =>
    !(decide (first.toNat ≤ g) && decide (g < first.toNat + count.toNat)) || bit r.triggers g

/-- The fields of CLAIM and RELEASE (R276). -/
def claimWf (kind : Byte) (count : BitVec 16) : Bool := kind.toNat ≤ 4 && 1 ≤ count.toNat

/-- CLAIM (R291). -/
def execClaim (h : Hdr) (kind : Byte) (first count : BitVec 16) (s : State) : Host.Outcome State Fault Refusal :=
  .next (queueCmd s h 0x20 [(128, kind.toNat), (144, first.toNat), (160, count.toNat)] (claimWf kind count)
      (claimRec kind first count) false fun s =>
    let c := ctxOfQueue h.sq
    let k := kind.toNat
    if kindCount k < first.toNat + count.toNat then s.done h stBadCommand
    else
      let keys := claimRange k first.toNat count.toNat
      match keys.find? fun x => s.claim x ≠ 31 && s.claim x ≠ c with
      | some x => s.done h stClaimed (placeN 32 0 (x - 256 * k) ||| placeN 32 16 (s.claim x))
      | none => (keys.foldl (fun s x => s.setClaim x c) s).done h stOk)

/-- A claim is released (R175, R197, R201, R291). -/
def State.releaseClaim (s : State) (key : Nat) : State :=
  let s := s.setClaim key 31
  let i := key % 256
  match key / 256 with
  | 2 => if (s.tim i).st = .idle then s else s.timDisarm i
  | 3 => s.acqRelease i
  | 4 => s.updGroup i fun r => { r.disable with cfg := setBit r.cfg 0 false }
  | _ => s

/-- RELEASE (R291). -/
def execRelease (h : Hdr) (kind : Byte) (first count : BitVec 16) (s : State) : Host.Outcome State Fault Refusal :=
  .next (queueCmd s h 0x21 [(128, kind.toNat), (144, first.toNat), (160, count.toNat)] (claimWf kind count) anyRec false fun s =>
    let c := ctxOfQueue h.sq
    let k := kind.toNat
    if kindCount k < first.toNat + count.toNat then s.done h stBadCommand
    else
      let keys := claimRange k first.toNat count.toNat
      if keys.any fun x => s.claim x ≠ c then s.done h stNotOwner
      else (keys.foldl State.releaseClaim s).done h stOk)

/-- The lock is free: it has no owner, or its recorded epoch is not its owner's present one (R295). -/
def State.lockFree (s : State) (n : Nat) : Bool :=
  let l := s.lock n
  l.owner = 31 || l.epoch ≠ (s.ctx l.owner).epoch

/-- The context holds or awaits lock n (R293). -/
def State.lockInvolves (s : State) (c n : Nat) : Bool :=
  (!s.lockFree n && (s.lock n).owner = c) || (s.lock n).waiters.any fun w => w.ctx = c

/-- The keys of locks that the state lists. -/
def State.lockKeys (s : State) : List Nat := s.host.locks.map (·.1)

/-- A lock of equal or higher rank is held or requested by the context (R293). -/
def State.lockOrder (s : State) (c n : Nat) : Bool :=
  s.lockKeys.any fun m => (s.lock n).rank.toNat ≤ (s.lock m).rank.toNat && s.lockInvolves c m

/-- A lock is granted (R293, R295): a lock whose owner's epoch has moved on is SUSPECT. -/
def State.grantLock (s : State) (n ctx : Nat) (sq : QueueId) (cid : BitVec 16) : State :=
  let l := s.lock n
  let susp := l.suspect || l.owner ≠ 31
  let s := s.setLock n { l with owner := ctx, suspect := susp, epoch := (s.ctx ctx).epoch }
  (s.updCmd sq cid fun c => { c with suspect := susp }).finish sq cid stOk

/-- Every earlier LOCK of the waiter's context has been granted (R293). -/
def State.lockTurn (s : State) (w : LockWait) : Bool :=
  s.lockKeys.all fun m => (s.lock m).waiters.all fun x => x.ctx ≠ w.ctx || decide (w.seq ≤ x.seq)

/-- Grant lock n to the first waiter that may take it, where the lock is free (R293). -/
def State.serveLock (s : State) (n : Nat) : State :=
  if !s.lockFree n then s
  else
    match (s.lock n).waiters.find? s.lockTurn with
    | some w =>
      (s.updLock n fun l => { l with waiters := l.waiters.filter fun x => x ≠ w }).grantLock n w.ctx w.sq w.cid
    | none => s

/-- LOCK (R292, R293): where it cannot be granted at once it waits, or with TIMEOUT 0 completes TIMEOUT. -/
def execLock (h : Hdr) (lock : Byte) (timeout : Word32) (s : State) : Host.Outcome State Fault Refusal :=
  .next (queueCmd s h 0x22 [(128, lock.toNat), (160, timeout.toNat)] (lock.toNat < 64 && timeout.toNat ≤ 1000000)
      anyRec true fun s =>
    let c := ctxOfQueue h.sq
    let n := lock.toNat
    if h.target ≠ 0 then s.done h stBadCommand
    else if s.lockOrder c n then s.done h stLockOrder
    else
      let w : LockWait := ⟨h.sq, h.cid, c, s.host.fetchSeq, s.now + timeout.toNat * usTicks⟩
      let t := s.updLock n fun l => { l with waiters := l.waiters ++ [w] }
      let t := State.serveLock { t with host := { t.host with fetchSeq := t.host.fetchSeq + 1 } } n
      if timeout = 0 && (t.lock n).waiters.contains w then s.done h stTimeout else t)

/-- LOCK_GRANT (R293). -/
def execLockGrant (lock : Fin 64) (s : State) : Host.Outcome State Fault Refusal :=
  .next (inRun s fun s => s.serveLock lock.val)

/-- A LOCK stops waiting. -/
def State.dropWaiter (s : State) (sq : QueueId) (cid : BitVec 16) : State :=
  { s with host := { s.host with locks := s.host.locks.map fun l =>
    (l.1, { l.2 with waiters := l.2.waiters.filter fun w => !(w.sq = sq && w.cid = cid) }) } }

/-- The wait of a LOCK. -/
def State.lockWait (s : State) (sq : QueueId) (cid : BitVec 16) : Option LockWait :=
  (s.host.locks.flatMap fun l => l.2.waiters).find? fun w => w.sq = sq && w.cid = cid

/-- LOCK_TIMEOUT (R293). -/
def execLockTimeout (sq : QueueId) (cid : BitVec 16) (s : State) : Host.Outcome State Fault Refusal :=
  .next (inRun s fun s =>
    match s.lockWait sq cid with
    | some w => if w.until_ ≤ s.now then (s.dropWaiter sq cid).finish sq cid stTimeout else s
    | none => s)

/-- UNLOCK (R292, R294). -/
def execUnlock (h : Hdr) (lock validate : Byte) (s : State) : Host.Outcome State Fault Refusal :=
  .next (queueCmd s h 0x23 [(128, lock.toNat), (136, validate.toNat)] (lock.toNat < 64 && validate.toNat < 2) anyRec true fun s =>
    let n := lock.toNat
    if h.target ≠ 0 then s.done h stBadCommand
    else if s.lockFree n || (s.lock n).owner ≠ ctxOfQueue h.sq then s.done h stNotOwner
    else
      (s.updLock n fun l => { l with
        owner := 31
        suspect := l.suspect && validate ≠ 1 }).done h stOk)

/-- GBL_LOCK_WRITE (R292, R296): the rank, while the lock is free. In recovery the register does not work (R322). -/
def execGblLockWrite (n : Fin 64) (v : Word32) (s : State) : Host.Outcome State Fault Refusal :=
  .next (inRun s fun s =>
    if s.lockFree n.val && !s.bh.recovery then s.updLock n.val fun l => { l with rank := fld v 16 8 } else s)

/-- BARRIER (R280): it waits for the commands of its context that were fetched before it. -/
def execBarrier (h : Hdr) (s : State) : Host.Outcome State Fault Refusal :=
  .next (queueCmd s h 0x38 [] true anyRec true fun s =>
    if h.target ≠ 0 then s.done h stBadCommand
    else
      match s.cmd? h.sq h.cid with
      | none => s
      | some c =>
        let l := (s.host.inflight.filter fun d => ctxOfQueue d.sq = ctxOfQueue h.sq && d.seq < c.seq).map (·.seq)
        if l.isEmpty then s.done h stOk else s.updCmd h.sq h.cid fun c => { c with bar := l })

/-- An ABORT reaches the heat of a HEAT_START (R103, R105, R148, R289): whether it is stopped. -/
def State.abortStart (s : State) (c : Cmd) (e : Nat) : State × Bool :=
  let r := s.eng e
  match r.heat.filter fun h => h.sq = c.sq && h.cid = c.cid with
  | some h =>
    match h.ended with
    | some x =>
      if x.status = stOk then (s.updHeat e fun h => { h with ended := some ⟨stAborted, 0, 0, 0⟩ }, true) else (s, false)
    | none =>
      if h.awaits then (s.failAdmission e stAborted, true)
      else if r.st = .held then
        ((s.abortHeat e).sendAll (s.peers r) (.coupledAbort r.coupling s.rtick), true)
      else if h.abort.isSome then (s, false)
      else (s.requestAbort e, true)
  | none =>
    ((s.updEng e fun r => { r with launchQ := r.launchQ.filter fun q => !(q.sq = c.sq && q.cid = c.cid) }).finish
      c.sq c.cid stAborted, true)

/-- What waits for a started command is dropped: a write that waits for a boundary, a calibration request, a crew map. -/
def State.dropWaits (s : State) (sq : QueueId) (cid : BitVec 16) : State :=
  let s : State := { s with engines := s.engines.map fun (e : Nat × Engine) => (e.1, { e.2 with heat := e.2.heat.map fun (h : Heat) =>
    { h with pendTsets := h.pendTsets.filter fun p => !(p.sq = sq && p.cid = cid) } }) }
  let s : State := { s with cal := { s.cal with
    reqs := s.cal.reqs.filter fun r => !(r.sq = sq && r.cid = cid)
    mapWaits := s.cal.mapWaits.filter fun r => !(r.sq = sq && r.cid = cid) } }
  s.dropWaiter sq cid

/-- A merge of the drain engine belongs to this command. -/
def Job.isOf (j : Job) (sq : QueueId) (cid : BitVec 16) : Bool :=
  match j with
  | .merge _ a b _ _ => a = sq && b = cid
  | .drain _ _ => false

/-- A merge that is stopped. -/
def State.stopMerge (s : State) (sq : QueueId) (cid : BitVec 16) : State :=
  match (s.fc.job.toList ++ s.fc.merges).find? fun j => j.isOf sq cid with
  | some (.merge _ _ _ o l) => s.failMerge sq cid o l stAborted
  | _ => s

/-- Update one record: its number and its name tell it. -/
def State.updRec (s : State) (c : Cmd) (f : Cmd → Cmd) : State :=
  s.mapCmds fun d => if d.seq = c.seq && d.names c.sq c.cid then f d else d

/-- A transfer is stopped part-way: it completes ABORTED with PARTIAL and the bytes it has moved (R285, R289). -/
def State.stopXfer (s : State) (c : Cmd) (x : Xfer) : State :=
  let (n, s) := s.cutXfer c.seq x
  (s.refetch x).updRec c fun c => { c.decide stAborted 0 0 (BitVec.ofNat 64 n) with part := decide (0 < x.size), xfer := none }

/-- The transfer of a queue and CID that can still be stopped. -/
def State.xferOf (s : State) (sq : QueueId) (cid : BitVec 16) : Option (Cmd × Xfer) :=
  s.host.inflight.findSome? fun c => if c.names sq cid && c.csn.isNone then c.xfer.map fun x => (c, x) else none

/-- A command that took effect when it was accepted, and only waits for its moment of completion (R289). -/
def Cmd.accepted (c : Cmd) (waits : List ModeWait) : Bool :=
  ((c.opc = 0x02 || c.opc = 0x03) && c.engine.isSome) || (c.opc = 0x39 && waits.any fun w => w.sq = c.sq && w.cid = c.cid)

/-- An ABORT decides on a command in flight (R289): whether it is stopped. -/
def State.abortCmd (s : State) (c : Cmd) : State × Bool :=
  if c.opc = 0x04 || c.accepted s.dev.waits then (s, false)
  else
    match (if c.opc = 0x01 then c.engine else none) with
    | some e => s.abortStart c e
    | none =>
      let s := (s.dropWaits c.sq c.cid).stopMerge c.sq c.cid
      (s.finish c.sq c.cid stAborted, true)

/-- ABORT (R277, R289). Transfers are the commands with a LENGTH, and SEGMENT_WRITE (DEDUCED, log entry 122); one that has moved
everything can be stopped until its entry is reserved. An ABORT of a heat that has faulted completes TARGET_DONE (DEDUCED, log
entry 46); one of a command on another member is decided there. -/
def execAbort (h : Hdr) (tcid : BitVec 16) (tsq : Byte) (s : State) : Host.Outcome State Fault Refusal :=
  .next (queueCmd s h 0x04 [(128, tcid.toNat), (144, tsq.toNat)] true anyRec true fun s =>
    let q : QueueId := ⟨tsq.toNat, tsq.isLt⟩
    if h.target ≠ 0 then s.done h stBadCommand
    else if ctxOfQueue q ≠ ctxOfQueue h.sq then s.done h stNotOwner
    else
      match s.cmd? q tcid, s.xferOf q tcid with
      | none, none => s.done h stTargetDone
      | none, some (c, x) => (s.stopXfer c x).done h stOk
      | some c, _ =>
        if c.stage = .remote then
          let e := s.entryOf h 0x04 [(128, tcid.toNat), (144, tsq.toNat)]
          (s.updCmd h.sq h.cid fun d => { d with stage := .remote, source := c.source }).sendTo c.source.toNat (.command h.sq e (s.recOf h))
        else
          let (s, ok) := s.abortCmd c
          s.done h (if ok then stOk else stTargetDone))

end Sys2Proof.Machine
end

