-- ==== Sys2Proof/Machine/HostQueues.lean ====
section
/-! DEFINITION. Queues (R271 to R274, R288, R297), the stages of a command from fetch to its completion entry (R273, R275,
R276, R281 to R288) and the reset of a context (R287). -/

namespace Sys2Proof.Machine

/-- A mask of w ones from bit lo of an entry. -/
def entryField (f : Nat × Nat) : BitVec 512 := BitVec.ofNat 512 (2 ^ f.2 - 1) <<< f.1

/-- OPC, FENCE, TARGET and CID (R275). -/
def headerFields : List (Nat × Nat) := [(0, 9), (16, 6), (32, 16)]

/-- The bits of bytes 8 to 63 that R277 gives each opcode; none for an opcode that is not defined. -/
def opcFields (opc : Nat) : Option (List (Nat × Nat)) :=
  match opc with
  | 0x01 => some [(128, 7), (144, 12), (256, 256)]
  | 0x02 => some [(128, 7)]
  | 0x03 => some [(128, 7)]
  | 0x04 => some [(128, 16), (144, 8)]
  | 0x08 => some [(64, 64), (128, 7), (136, 1), (144, 16), (160, 16)]
  | 0x09 => some [(64, 64), (128, 7), (136, 1), (144, 16), (160, 16)]
  | 0x0A => some [(64, 64), (128, 32), (160, 32), (192, 32)]
  | 0x10 => some [(64, 64), (128, 7), (136, 8), (144, 2), (160, 16), (192, 40)]
  | 0x11 => some [(128, 4), (144, 16), (160, 16), (192, 208)]
  | 0x12 => some [(128, 7), (136, 8), (256, 256)]
  | 0x18 => some [(128, 8), (136, 1), (144, 8), (192, 64), (256, 256)]
  | 0x19 => some [(128, 32)]
  | 0x1A => some [(64, 64), (128, 32), (192, 64), (256, 64)]
  | 0x1B => some [(64, 64), (128, 32), (192, 64), (256, 64)]
  | 0x20 => some [(128, 8), (144, 16), (160, 16)]
  | 0x21 => some [(128, 8), (144, 16), (160, 16)]
  | 0x22 => some [(128, 6), (160, 32)]
  | 0x23 => some [(128, 6), (136, 1)]
  | 0x28 => some [(128, 16)]
  | 0x29 => some [(128, 8), (136, 1), (160, 32), (192, 32), (224, 32), (256, 64), (320, 32)]
  | 0x2A => some [(128, 8), (136, 1), (160, 224)]
  | 0x30 => some [(64, 64), (128, 32), (192, 64), (256, 64)]
  | 0x31 => some [(128, 8), (160, 256)]
  | 0x32 => some [(128, 32)]
  | 0x38 => some []
  | 0x39 => some [(128, 3)]
  | 0x3A => some [(64, 64), (128, 16), (144, 16), (192, 64), (256, 16)]
  | _ => none

/-- The values R276 states for the fields of an opcode. -/
def entryValues (e : BitVec 512) : Bool :=
  let unit := fldN e 128 8
  let count := fldN e 160 16
  match fldN e 0 8 with
  | 0x04 => fldN e 8 1 = 0
  | 0x08 | 0x09 => 1 ≤ count && decide (fldN e 144 16 + count ≤ (if fldN e 136 1 = 0 then 4096 else 1024))
  | 0x0A => 1 ≤ fldN e 192 32
  | 0x10 => count ≤ 256
  | 0x20 | 0x21 => decide (unit ≤ 4) && 1 ≤ count
  | 0x22 => fldN e 160 32 ≤ 1000000
  | 0x29 => unit ≤ 31
  | 0x2A => unit ≤ 15
  | 0x31 => decide (2 ≤ unit) && decide (unit ≤ 8) && fldN e (160 + 32 * unit) (256 - 32 * unit) = 0
  | 0x3A => decide (fldN e 144 16 ≤ 4096) && decide (fldN e 256 16 ≤ 4096)
  | _ => true

/-- Step 1 of R276: the entry is well formed. ABORT's FENCE bit must be 0 (R289). -/
def entryWf (e : BitVec 512) : Bool :=
  match opcFields (fldN e 0 8) with
  | none => false
  | some l => e &&& ~~~((headerFields ++ l).foldl (fun m f => m ||| entryField f) 0) = 0 && entryValues e

/-- Entries of a queue (R272). -/
def queueSize (log : BitVec 4) : Nat := 2 ^ log.toNat

/-- From index a up to index b of a queue. -/
def queueDist (log : BitVec 4) (a b : BitVec 12) : Nat := (b.toNat + queueSize log - a.toNat) % queueSize log

/-- The next index. -/
def queueNext (log : BitVec 4) (a : BitVec 12) : BitVec 12 := BitVec.ofNat 12 ((a.toNat + 1) % queueSize log)

/-- Commands of an SQ in flight (R273). -/
def State.sqInflight (s : State) (q : QueueId) : Nat := (s.host.inflight.filter fun c => c.sq = q).length

/-- The entry list grants the pair to its context (R271, R323). -/
def State.pairGranted (s : State) (q : QueueId) : Bool :=
  let r := s.entryRec (ctxOfQueue q)
  bit r.perms 0 && bit r.queues (q.val % 16)

/-- The SQ holds an entry that the device may fetch, whatever its target (R273, R287, R325). -/
def State.fetchable (s : State) (q : QueueId) : Bool :=
  let r := s.qp q.val
  s.dev.ready && r.sqEn && r.cqEn && s.pairGranted q && !(s.ctx (ctxOfQueue q)).resetting && r.sqHead ≠ r.sqTail &&
  decide (queueDist r.cqLog r.cqHead r.cqTail + s.sqInflight q + 1 < queueSize r.cqLog)

/-- Commands in flight for a target. -/
def State.targetInflight (s : State) (t : BitVec 6) : Nat := (s.host.inflight.filter fun c => c.target = t).length

/-- Visits from the SQ visited last to SQ q in round-robin order (R273): 1 to 256. -/
def State.visitsTo (s : State) (q : Nat) : Nat := (q + 255 - s.host.lastSq) % 256 + 1

/-- The SQ waits: its next entry, which the device has seen, names a target with 4,096 commands in flight (R273). -/
def State.sqWaits (s : State) (q : Nat) : Bool :=
  match (s.qp q).fullFor with
  | some t => decide (4096 ≤ s.targetInflight t)
  | none => false

/-- It is the turn of SQ q (R273): no SQ that is visited before it has an entry to fetch. -/
def State.fetchTurn (s : State) (q : QueueId) : Bool :=
  s.host.qps.all fun x =>
    if hq : x.1 < 256 then decide (s.visitsTo q.val ≤ s.visitsTo x.1) || !s.fetchable ⟨x.1, hq⟩ || s.sqWaits x.1 else true

/-- A pair that has cancelled every entry up to the tail of its RESTART is STOPPED no longer (R288). -/
def QPair.endRestart (r : QPair) : QPair :=
  if r.cancelTo = some r.sqHead then { r with stopped := false, cancelTo := none } else r

/-- The message types there are (R319). -/
def messageTypes : List Nat :=
  [0x01, 0x02, 0x03, 0x10, 0x11, 0x12, 0x13, 0x20, 0x21, 0x22, 0x23, 0x24, 0x30, 0x31, 0x32, 0x40]

/-- The status of an entry that is judged when it is fetched: malformed, with a CID in flight (R273, R276), or a BOATHOUSE_MSG
of an unknown TYPE (R318). -/
def State.fetchRefusal (s : State) (q : QueueId) (entry : BitVec 512) : Option Byte :=
  if !entryWf entry || s.host.inflight.any (fun c => c.names q (fld entry 32 16)) then some stBadCommand
  else if fldN entry 0 8 = 0x3A && !messageTypes.contains (fldN entry 128 16) then
    let t : BitVec 6 := fld entry 16 6
    some (if bit s.ez.members t.toNat && !grantsMember (s.entryRec (ctxOfQueue q)) t then stDenied else stBadCommand)
  else none

/-- The stage and status of a command just fetched: cancelled from a STOPPED SQ (R288), judged at once, waiting for
its FENCE, or started. -/
def Cmd.fetchedFrom (c : Cmd) (stopped : Bool) (bad : Option Byte) : Cmd :=
  if stopped then { c.decide stCancelled with quiet := true }
  else
    match bad with
    | some st => c.decide st
    | none => { c with stage := if c.fence then .fetched else .started }

/-- COMMAND_FETCH (R273). The operand is the entry at the head of the SQ; one for a target with 4,096 commands in flight is seen and not
fetched. -/
def execCommandFetch (q : QueueId) (entry : BitVec 512) (s : State) : Host.Outcome State Fault Refusal :=
  .next (inRun s fun s =>
    let target : BitVec 6 := fld entry 16 6
    let cid : BitVec 16 := fld entry 32 16
    if !(s.fetchable q && s.fetchTurn q) then s
    else if 4096 ≤ s.targetInflight target then
      State.updQp { s with host := { s.host with lastSq := q.val } } q.val fun r => { r with fullFor := some target }
    else
      let r := s.qp q.val
      let c := { Cmd.fresh q cid (fld entry 0 8) target s.host.fetchSeq .fetched with
        fence := bit entry 8
        raw := some entry
        engine := if fldN entry 0 8 = 1 then some (fldN entry 128 7) else none }
      let s := s.addCmd (c.fetchedFrom r.stopped (s.fetchRefusal q entry))
      let s := { s with host := { s.host with lastSq := q.val } }
      s.updQp q.val fun r => QPair.endRestart { r with
        sqHead := queueNext r.sqLog r.sqHead
        fullFor := none
        cancelled := if r.stopped then satInc r.cancelled else r.cancelled })

/-- COMMAND_START (R283 promise 2, R288). -/
def execCommandStart (q : QueueId) (cid : BitVec 16) (s : State) : Host.Outcome State Fault Refusal :=
  .next (inRun s fun s =>
    match s.cmd? q cid with
    | none => s
    | some c =>
      if c.stage ≠ .fetched || s.host.inflight.any (fun d => d.sq = q && decide (d.seq < c.seq)) then s
      else if (s.qp q.val).failed then
        (s.updCmd q cid fun c => { c.decide stCancelled with quiet := true }).updQp q.val fun r =>
          { r with stopped := true, cancelTo := none, cancelled := satInc r.cancelled }
      else s.updCmd q cid fun c => { c with stage := .started })

/-- The completion entry of a command (R281). -/
def cqEntry (c : Cmd) (r : QPair) : BitVec 256 :=
  place 256 0 r.csn ||| place 256 32 c.cid ||| placeN 256 48 c.sq.val ||| place 256 56 c.status ||| place 256 64 c.detail |||
  placeB 256 96 c.part ||| placeB 256 97 c.fcsat ||| placeB 256 98 c.suspect ||| place 256 104 c.source |||
  placeB 256 127 r.cqPhase ||| place 256 128 c.r0 ||| place 256 192 c.r1

/-- The command failed as R288 judges it. -/
def Cmd.failure (c : Cmd) : Bool := c.status ≠ stOk && c.status ≠ stTargetDone && !c.quiet

/-- The pair after an entry was written for c (R272, R274, R281, R288). -/
def QPair.wrote (r : QPair) (c : Cmd) : QPair :=
  let n := queueNext r.cqLog r.cqTail
  { r with
    cqTail := n
    cqPhase := if n = 0 then !r.cqPhase else r.cqPhase
    csn := r.csn + 1
    irqDue := r.irqDue && !r.irqEn
    failed := r.failed || c.failure }

/-- One entry is written to the completion queue, and its vector sent where it is due (R274, R281). -/
def State.writeCq (s : State) (c : Cmd) : State :=
  let r := s.qp c.sq.val
  let s := s.send (.completion c.sq.val r.cqTail.toNat (cqEntry c r))
  let s := s.setQp c.sq.val (r.wrote c)
  if r.irqEn && r.irqDue then s.sendVector r.vector.toNat else s

/-- The record leaves the commands in flight. -/
def State.dropCmd (s : State) (c : Cmd) : State :=
  { s with host := { s.host with inflight := s.host.inflight.filter fun d => d.seq ≠ c.seq } }

/-- A BARRIER that waited for command number n waits no longer for it, and completes once it waits for none (R280). -/
def Cmd.barrierPast (c : Cmd) (n : Nat) : Cmd :=
  if c.open && c.bar.contains n then
    let l := c.bar.filter fun x => x ≠ n
    if l.isEmpty then { c with bar := l }.decide stOk else { c with bar := l }
  else c

/-- The locks of a context are freed and become SUSPECT (R287, R295). -/
def State.freeLocks (s : State) (c : Nat) : State :=
  s.lockKeys.foldl (fun s n =>
    if !s.lockFree n && (s.lock n).owner = c then s.updLock n fun l => { l with owner := 31, suspect := true } else s) s

/-- The claims of a context are released (R287). -/
def State.freeClaims (s : State) (c : Nat) : State :=
  ((s.host.claims.filter fun x => x.2 = c).map (·.1)).foldl State.releaseClaim s

/-- Both queues of pair q are disabled. -/
def State.disablePair (s : State) (q : Nat) : State := s.updQp q fun r => { r with sqEn := false, cqEn := false }

/-- Steps 3 to 5 of a context reset, once no command of the context is in flight (R287). The claims that other members hold for
the context are released by a message to each (DEDUCED, log entry 98). -/
def State.settleCtx (s : State) (c : Nat) : State :=
  if (s.ctx c).resetting && !s.host.inflight.any (fun d => ctxOfQueue d.sq = c) then
    let s := ((s.freeLocks c).freeClaims c).sendAll s.otherIds (.freeClaims (BitVec.ofNat 4 c))
    let s := s.updCtx c fun x => { x with epoch := x.epoch + 1, resetting := false }
    (List.range 16).foldl (fun s i => s.disablePair (16 * c + i)) s
  else s

/-- A pair that the entry list no longer grants is disabled once its last command has completed (R325). -/
def State.settlePair (s : State) (q : QueueId) : State :=
  if s.pairGranted q || decide (0 < s.sqInflight q) then s else s.disablePair q.val

/-- Once the completion of the MODE_SET STOP that was accepted is written, Stop follows 1 ms later (R339). -/
def State.stopTimer (s : State) (c : Cmd) : State :=
  if s.power.stopReq = some (c.sq, c.cid) then
    { s with power := { s.power with stopReq := none, stopAt := some (s.now + msTicks) } }
  else s

/-- Writing the completion of a decided command: an entry on the root, a completion flit from any other member (R284). -/
def State.writeCompletion (s : State) (c : Cmd) : State :=
  let s := if s.isTop then s.writeCq c
    else s.sendTo 0 (.completion c.sq c.cid c.status c.detail c.r0 c.r1 c.part c.fcsat)
  (((((s.stopTimer c).dropCmd c).mapCmds fun d => d.barrierPast c.seq).releaseHeats).settleCtx (ctxOfQueue c.sq)).settlePair c.sq

/-- The decided command of a queue and CID: of several, the one whose entry is the CQ's next. -/
def State.decided? (s : State) (q : QueueId) (cid : BitVec 16) : Option Cmd :=
  match s.host.inflight.find? fun c => c.names q cid && !c.open && c.csn = some (s.qp q.val).csn with
  | some c => some c
  | none => s.host.inflight.find? fun c => c.names q cid && !c.open

/-- Everything a transfer moves is visible: it can be stopped no more (R284). -/
def State.closeXfer (s : State) (c : Cmd) : State :=
  match c.xfer with
  | some x => ((s.endXfer c.seq x).refetch x).updRec c fun c => { c with xfer := none }
  | none => s

/-- A command of an ordered group may complete: no earlier one of it is in flight (R286, R287). -/
def State.orderTurn (s : State) (c : Cmd) : Bool :=
  c.order = 0 || !s.host.inflight.any fun d => d.order = c.order && decide (d.seq < c.seq)

/-- COMMAND_COMMIT (R281, R284, R286): the entry reserved for a decided command is written, in the order of the CQ's CSNs; a
member other than the root sends its completion flit. -/
def execCommandCommit (q : QueueId) (cid : BitVec 16) (s : State) : Host.Outcome State Fault Refusal :=
  .next (inRun s fun s =>
    match s.decided? q cid with
    | none => s
    | some c =>
      let s := s.closeXfer c
      match s.host.inflight.find? fun d => d.seq = c.seq with
      | none => s
      | some c => if (if s.isTop then c.csn = some (s.qp q.val).csn else s.orderTurn c) then s.writeCompletion c else s)

/-- A doorbell or configuration write is refused: ERR is set and source 57 receives one event (R272, R298). -/
def State.queueErr (s : State) (q : QueueId) : State :=
  (s.updQp q.val fun r => { r with err := true }).umpEvent 57
    (placeN 32 8 (ctxOfQueue q) ||| placeB 32 12 true ||| placeN 32 24 q.val)

/-- The index of a doorbell write. -/
def doorbell (v : Word32) : BitVec 12 := fld v 0 12

/-- An access to be applied waits for an aperture write that reached the root before it (R269). -/
def ApAcc.isWrite (a : ApAcc) : Bool :=
  match a with
  | .write .. => true
  | _ => false
def State.apOpen (s : State) : Bool := s.host.ap.any ApAcc.isWrite

/-- An access joins those that wait. -/
def State.apWait (s : State) (a : ApAcc) : State := { s with host := { s.host with ap := s.host.ap ++ [a] } }

/-- An SQ tail doorbell is applied (R272). -/
def State.sqTailWrite (s : State) (q : QueueId) (v : Word32) : State :=
  let r := s.qp q.val
  let t := doorbell v
  if r.sqEn && decide (t.toNat < queueSize r.sqLog) &&
      decide (queueDist r.sqLog r.sqTail t + queueDist r.sqLog r.sqHead r.sqTail < queueSize r.sqLog) then
    s.setQp q.val { r with sqTail := t }
  else s.queueErr q

/-- A CQ head doorbell is applied (R272, R274). -/
def State.cqHeadWrite (s : State) (q : QueueId) (v : Word32) : State :=
  let r := s.qp q.val
  let t := doorbell v
  if r.cqEn && decide (t.toNat < queueSize r.cqLog) &&
      decide (queueDist r.cqLog r.cqHead t ≤ queueDist r.cqLog r.cqHead r.cqTail) then
    let left := t ≠ r.cqTail
    let s := s.setQp q.val { r with cqHead := t, irqDue := !(left && r.irqEn) }
    if left && r.irqEn then s.sendVector r.vector.toNat else s
  else s.queueErr q

/-- HQ_SQ_TAIL_WRITE (R269, R272): it waits for the aperture writes before it. -/
def execHqSqTailWrite (q : QueueId) (v : Word32) (s : State) : Host.Outcome State Fault Refusal :=
  .next (whenReady s fun s => if s.apOpen then s.apWait (.sqTail q v) else s.sqTailWrite q v)

/-- HQ_CQ_HEAD_WRITE (R269, R272, R274): it waits for the aperture writes before it. -/
def execHqCqHeadWrite (q : QueueId) (v : Word32) (s : State) : Host.Outcome State Fault Refusal :=
  .next (whenReady s fun s => if s.apOpen then s.apWait (.cqHead q v) else s.cqHeadWrite q v)

/-- LOG2SIZE is 4 to 12 (R297). -/
def sizeOk (v : Word32) : Bool := decide (4 ≤ fldN v 0 4) && decide (fldN v 0 4 ≤ 12)

/-- HQ_SQ_CFG_WRITE (R271, R272, R297). The queue starts empty at index 0 (DEDUCED, log entry 20). -/
def execHqSqCfgWrite (q : QueueId) (v : Word32) (s : State) : Host.Outcome State Fault Refusal :=
  .next (whenReady s fun s =>
    let r := s.qp q.val
    let en := bit v 8
    if r.sqEn then s
    else if en && !s.pairGranted q then s
    else if !sizeOk v || (en && !r.cqEn) then s.queueErr q
    else if en then
      s.setQp q.val { r with
        sqLog := fld v 0 4
        sqEn := true
        sqTail := 0
        sqHead := 0
        fullFor := none
        stopped := false
        err := false
        cancelled := 0
        failed := false
        cancelTo := none }
    else s.setQp q.val { r with sqLog := fld v 0 4 })

/-- HQ_CQ_CFG_WRITE (R271, R272, R281, R297). The queue starts empty at index 0 (DEDUCED, log entry 20). -/
def execHqCqCfgWrite (q : QueueId) (v : Word32) (s : State) : Host.Outcome State Fault Refusal :=
  .next (whenReady s fun s =>
    let r := s.qp q.val
    let en := bit v 8
    if r.cqEn then s
    else if en && !s.pairGranted q then s
    else if !sizeOk v then s.queueErr q
    else
      let r := { r with cqLog := fld v 0 4, irqEn := bit v 9, vector := fld v 16 8 }
      if en then
        s.setQp q.val { r with
          cqEn := true
          cqHead := 0
          cqTail := 0
          cqPhase := true
          csn := 0
          irqDue := true }
      else s.setQp q.val r)

/-- HQ_SQ_RESTART (R288). -/
def execHqSqRestart (q : QueueId) (s : State) : Host.Outcome State Fault Refusal :=
  .next (whenReady s fun s =>
    s.updQp q.val fun r =>
      QPair.endRestart { r with failed := false, cancelTo := if r.stopped then some r.sqTail else none })

/-- A context reset completes a command that has started on this device ABORTED (R287), one that has been accepted too. -/
def State.resetHere (s : State) (c : Cmd) : State :=
  match (if c.opc = 0x01 then c.engine else none) with
  | some e => (s.abortStart c e).1
  | none =>
    let t := (s.abortCmd c).1
    State.finish { t with dev := { t.dev with waits := t.dev.waits.filter fun w => !(w.sq = c.sq && w.cid = c.cid) } }
      c.sq c.cid stAborted

/-- A context reset completes one command in flight ABORTED (R287): a running heat ends as ABORT would end it, a command on
another member is aborted there. -/
def State.resetCmd (s : State) (c : Cmd) : State :=
  match c.stage with
  | .committed =>
    match c.xfer with
    | some x => s.stopXfer c x
    | none => s
  | .fetched => s.finish c.sq c.cid stAborted
  | .remote =>
    if c.opc = 0x04 then s.finish c.sq c.cid stAborted else s.sendTo c.source.toNat (.abortCmd c.sq c.cid)
  | .started => s.resetHere c

/-- The group in which the commands of an SQ are written in submission order at a context reset (R287). -/
def resetGroup (q : QueueId) : Nat := 2000 + q.val

/-- HQ_CTX_RESET (R287). -/
def execHqCtxReset (c : Fin 16) (s : State) : Host.Outcome State Fault Refusal :=
  .next (whenReady s fun s =>
    if (s.ctx c.val).resetting then s
    else
      let s := s.updCtx c.val fun x => { x with resetting := true }
      let mine (d : Cmd) : Bool := ctxOfQueue d.sq = c.val
      let s := s.mapCmds fun d => if mine d then { d with order := resetGroup d.sq } else d
      ((s.host.inflight.filter mine).foldl State.resetCmd s).settleCtx c.val)

end Sys2Proof.Machine
end

