-- ==== Sys2Proof/Machine/Sha.lean ====
section
/-! DEFINITION. SHA-384 as FIPS 180-4 defines it (R321, R326, R330). Its constants are computed from the primes, as the standard
gives them. -/

namespace Sys2Proof.Machine

/-- A number without a divisor between 2 and itself. -/
def isPrime (n : Nat) : Bool := decide (1 < n) && (List.range n).all fun d => decide (d < 2) || decide (n % d ≠ 0)

/-- The first 80 primes. -/
def shaPrimes : List Nat := (List.range 410).filter isPrime

/-- The largest r below 2^n with f r at most v, bit by bit from the highest. -/
def rootBelow (f : Nat → Nat) (v : Nat) : Nat → Nat → Nat
  | 0, r => r
  | n + 1, r => rootBelow f v n (if f (r + 2 ^ n) ≤ v then r + 2 ^ n else r)

/-- The first 64 bits of the fractional part of the cube root of p. -/
def cubeWord (p : Nat) : Word64 := BitVec.ofNat 64 (rootBelow (fun r => r * r * r) (p * 2 ^ 192) 68 0)

/-- The first 64 bits of the fractional part of the square root of p. -/
def squareWord (p : Nat) : Word64 := BitVec.ofNat 64 (rootBelow (fun r => r * r) (p * 2 ^ 128) 70 0)

/-- The round constants. -/
def shaK : List Word64 := shaPrimes.map cubeWord

/-- The eight working variables, and the hash value between blocks. -/
structure ShaRegs where
  a : Word64
  b : Word64
  c : Word64
  d : Word64
  e : Word64
  f : Word64
  g : Word64
  h : Word64
deriving DecidableEq, Repr

/-- The hash value before the first block: of the ninth to the sixteenth prime. -/
def shaStart : ShaRegs :=
  let v := fun i => squareWord (shaPrimes.getD (8 + i) 0)
  ⟨v 0, v 1, v 2, v 3, v 4, v 5, v 6, v 7⟩

/-- The sums of rotations of the round, and of the message schedule, whose third term is a shift. -/
def shaSum (x : Word64) (i j k : Nat) : Word64 := x.rotateRight i ^^^ x.rotateRight j ^^^ x.rotateRight k
def shaMix (x : Word64) (i j k : Nat) : Word64 := x.rotateRight i ^^^ x.rotateRight j ^^^ (x >>> k)

/-- One round with constant k and schedule word w. -/
def ShaRegs.round (r : ShaRegs) (k w : Word64) : ShaRegs :=
  let t := r.h + shaSum r.e 14 18 41 + ((r.e &&& r.f) ^^^ (~~~r.e &&& r.g)) + k + w
  let u := shaSum r.a 28 34 39 + ((r.a &&& r.b) ^^^ (r.a &&& r.c) ^^^ (r.b &&& r.c))
  ⟨t + u, r.a, r.b, r.c, r.d + t, r.e, r.f, r.g⟩

/-- The rounds of a block with these constants; `w` holds the next sixteen words of the schedule. -/
def shaRounds : List Word64 → List Word64 → ShaRegs → ShaRegs
  | [], _, r => r
  | k :: ks, w, r =>
    let x := fun i => w.getD i 0
    shaRounds ks (w.drop 1 ++ [shaMix (x 14) 19 61 6 + x 9 + shaMix (x 1) 1 8 7 + x 0]) (r.round k (x 0))

/-- The hash value after a block of sixteen words. -/
def ShaRegs.block (r : ShaRegs) (w : List Word64) : ShaRegs :=
  let t := shaRounds shaK w r
  ⟨r.a + t.a, r.b + t.b, r.c + t.c, r.d + t.d, r.e + t.e, r.f + t.f, r.g + t.g, r.h + t.h⟩

/-- The padded message: a one bit, zeros, and the length in bits as 128 bits. -/
def shaPad (l : List Byte) : List Byte :=
  l ++ 0x80 :: List.replicate ((239 - l.length % 128) % 128) 0 ++ (bytesLE 16 (8 * l.length)).reverse

/-- The hash value after the first n blocks of 128 bytes. -/
def shaBlocks : Nat → List Byte → ShaRegs → ShaRegs
  | 0, _, r => r
  | n + 1, l, r =>
    let b := l.take 128
    shaBlocks n (l.drop 128) (r.block ((List.range 16).map fun j => BitVec.ofNat 64 (beNat (sliceB b (8 * j) 8))))

/-- SHA-384. -/
def sha384 (l : List Byte) : BitVec 384 :=
  let m := shaPad l
  let r := shaBlocks (m.length / 128) m shaStart
  r.a ++ r.b ++ r.c ++ r.d ++ r.e ++ r.f

end Sys2Proof.Machine
end

