-- ==== Sys2Proof/Machine/Boathouse.lean ====
section
/-! DEFINITION. The Boathouse's messages (R317 to R334), its monitors (R313, R367), its watchdog (R314) and the TAP (R332). -/

namespace Sys2Proof.Machine

/-- Ticks in a second. -/
def secTicks : Nat := 1000 * msTicks

/-- A proposal's life and a challenge's (R327, R330). -/
def proposalTicks : Nat := 600 * secTicks
def challengeTicks : Nat := 60 * secTicks

/-- What serving a message gives: its status, its response and the state after it. -/
abbrev Served := Byte × List Byte × State

/-- A message that changes nothing. -/
def State.refused (s : State) (st : Byte) : Served := (st, [], s)

/-- Firmware has worked and restarted its watchdog (R312; DESIGN CHOICE, log entry 134). -/
def State.kick (s : State) : State := { s with bh := { s.bh with core := { s.bh.core with wdAt := s.now } } }

/-- The pending proposal, as the policy store holds it (R315, R327). -/
def State.setProposal (s : State) (p : Option Proposal) : State :=
  { s with bh := BhSt.save { s.bh with proposal := p } }

/-- A proposal past its 600th second is gone; expiry is handled between messages (R327). -/
def State.expireProposal (s : State) : State :=
  match s.bh.proposal with
  | some p => if p.at_ + proposalTicks ≤ s.now then s.setProposal none else s
  | none => s

/-- The ports a type is allowed on (R319). -/
inductive MsgPorts where
  | both
  | pcie
  | update
deriving DecidableEq, Repr

/-- A type is allowed on a port: `p` is the PCIe port, which party A uses (R318, R319, R320). -/
def MsgPorts.allow (m : MsgPorts) (policy : Word32) (p : Bool) : Bool :=
  match m with
  | .both => true
  | .pcie => p
  | .update => if policy = 1 then p else if policy = 2 then !p else true

/-- The update messages and GET_INFO are all that recovery serves (R322). -/
def recoveryType (typ : Nat) : Bool := typ = 1 || (0x10 ≤ typ && typ ≤ 0x13)

/-- Serve one message for a sender that may or may not use ADMIN types. What recovery does not serve completes NOT_READY
(DEDUCED, log entry 24). -/
def State.serve (s : State) (typ : Nat) (adminOk : Bool) (ports : MsgPorts) (p : Bool) (f : Bool → State → Served) : Served :=
  let s := s.expireProposal.kick
  if s.bh.recovery && !recoveryType typ then s.refused stNotReady
  else if !adminOk || !ports.allow s.bh.updatePolicy p then s.refused stDenied
  else f p s

/-- The request body as the mailbox holds it (R334). -/
def State.mbxBody (s : State) : List Byte := s.bh.mbxReq.readN 0 0 s.bh.mbxLen.toNat

/-- The mailbox's response is written (R334). -/
def State.mbxDone (s : State) (st : Byte) (rsp : List Byte) : State :=
  { s with bh := { s.bh with
      mbxBusy := false
      mbxStatus := st
      mbxRspLen := BitVec.ofNat 13 rsp.length
      mbxRsp := Memory.writeN 0 [] 0 rsp } }

/-- The bytes of a message: its packets follow each other in their sequence numbers, from the first to the last (R317). -/
def joinPackets (seq : BitVec 2) : Packets → Option (List Byte)
  | [] => none
  | p :: r =>
    if p.seq ≠ seq then none
    else if p.last then (if r.isEmpty then some p.data else none)
    else if r.any (·.first) then none
    else (joinPackets (seq + 1) r).map fun l => p.data ++ l

/-- The message that packets make (R317): those for the address in force whose PEC is good are taken, any other is dropped. -/
def State.assemble (s : State) (pkts : Packets) : Option (List Byte) :=
  match pkts.filter fun p => p.pecGood && p.addr = s.bh.smbAddr with
  | [] => none
  | p :: r => if p.first then joinPackets p.seq (p :: r) else none

/-- The TYPE and the body of a Boathouse request on the management port (R317, R318): 4,100 bytes at most, of which the first
four are TYPE and two zeros. -/
def State.mctpRequest (s : State) (pkts : Packets) : Option (Nat × List Byte) :=
  match s.assemble pkts with
  | some l =>
    if decide (4 ≤ l.length) && decide (l.length ≤ 4100) && (sliceB l 2 2).all (· = 0) then some (leNat (l.take 2), l.drop 4) else none
  | none => none

/-- A response on the management port: TYPE, a zero and the status come before the body (R318). -/
def mctpResponse (typ : Nat) (st : Byte) (body : List Byte) : List Byte := bytesLE 2 typ ++ [0, st] ++ body

/-- One message from its port (R317, R318): BOATHOUSE_MSG, the mailbox, which counts as context 0, or the management port, where
a request of another TYPE than the row's is no message of this row, and one of a TYPE that R319 does not know is answered
BAD_COMMAND by whichever row brings it. A response longer than RSP_LEN is cut there (DEDUCED, log entry 24). While the core is
halted nothing is served (R331; log entry 147). -/
def bhMsg (src : MsgSrc) (body : List Byte) (typ : Nat) (admin : Bool) (ports : MsgPorts)
    (f : List Byte → Bool → State → Served) (s : State) : State :=
  match src with
  | .queue h rspLen rspPtr =>
    queueCmd s h 0x3A [(128, typ), (144, body.length), (192, rspPtr.toNat), (256, rspLen.toNat)] (decide (body.length ≤ 4096)
        && decide (rspLen.toNat ≤ 4096)) (fun r => !admin || bit r.perms 1) false fun s =>
      if s.bh.core.halted then s
      else
        let (st, rsp, s) := s.serve typ true ports true (f body)
        let out := rsp.take rspLen.toNat
        let s := if out.isEmpty then s else s.send (.hostWrite rspPtr.toNat out)
        s.done h st 0 0 (BitVec.ofNat 64 out.length)
  | .mailbox => inRun s fun s =>
      if s.bh.mbxBusy && decide (s.bh.mbxJob.1.toNat = typ) && !s.bh.core.halted then
        let (st, rsp, s) := s.serve typ (!admin || bit (s.entryRec 0).perms 1) ports true (f s.bh.mbxJob.2)
        s.mbxDone st rsp
      else s
  | .mctp pkts => inRun s fun s =>
      match s.mctpRequest pkts with
      | none => s
      | some (t, l) =>
        if s.bh.core.halted then s
        else if t = typ && decide (l = body) then
          let (st, rsp, s) := s.serve typ true ports false (f body)
          s.send (.mctp (mctpResponse typ st rsp))
        else if messageTypes.contains t then s
        else s.send (.mctp (mctpResponse t stBadCommand []))

/-- A body of a fixed length, or BAD_COMMAND (R318). -/
def sized (n : Nat) (f : List Byte → Bool → State → Served) : List Byte → Bool → State → Served :=
  fun body p s => if body.length = n then f body p s else s.refused stBadCommand

/-- GBL_ID: stepping B0 and the variant (R1, R2, R296). -/
def State.gblId (s : State) : Word32 := 0x4256 ||| placeB 32 16 (s.dev.variant = .m1) ||| placeN 32 20 0xB0

/-- BH_STATUS (R334). -/
def State.bhStatus (s : State) : Word32 :=
  let b := s.bh
  place 32 0 b.lifecycle ||| placeB 32 2 b.unlocked ||| placeB 32 3 b.slotB ||| placeB 32 4 b.fallback |||
  placeB 32 5 b.recovery ||| placeB 32 6 b.verified ||| place 32 8 b.svn ||| place 32 16 b.keyEpoch

/-- KIND of a proposal (R326). -/
def Proposal.kind (p : Proposal) : Nat := (p.bytes.getD 4 0).toNat

/-- BH_PROPOSAL (R334). -/
def State.bhProposal (s : State) : Word32 :=
  match s.bh.proposal with
  | none => 0
  | some p => 1 ||| placeB 32 1 p.sigA ||| placeB 32 2 p.sigB ||| placeN 32 4 (p.kind % 8) |||
      placeN 32 16 (ceilDiv (p.at_ + proposalTicks - s.now) secTicks)

/-- Bases of the slots (R315). -/
def slotSize : Nat := 0x01000000
def slotBase (b : Bool) : Nat := if b then slotSize else 0

/-- The inactive slot is B (R320, R322): in recovery it is slot A. -/
def State.inactiveB (s : State) : Bool := !s.bh.recovery && !s.bh.slotB

/-- A byte of a slot: a sector of slot A that nothing has erased holds the image the device was delivered with (log entry 9). -/
def State.slotByte (s : State) (a : Nat) : Byte :=
  match SMap.get? s.bh.flash a with
  | some v => v
  | none => if decide (a < slotSize) && bit s.bh.delivered (a / sectorBytes) then Config.deliveredImage a else erased

/-- Bytes of a slot. -/
def State.slotBytes (s : State) (a n : Nat) : List Byte := (List.range n).map fun i => s.slotByte (a + i)

/-- The signed header of a slot. -/
def State.slotHeader (s : State) (b : Bool) : List Byte := s.slotBytes (slotBase b) 4096

/-- GET_INFO (R319). The spec does not place the slot fields: they follow in its order (DESIGN CHOICE, log entry 22). -/
def execGetInfo (src : MsgSrc) (body : List Byte) (s : State) : Host.Outcome State Fault Refusal :=
  .next (bhMsg src body 1 false .both (sized 0 fun _ _ s =>
    let a := s.slotHeader false
    let b := s.slotHeader true
    let l := [s.gblId, s.bhStatus, s.bh.policySeq, Config.imageVersion a, Config.imageVersion b,
      (Config.imageSvn a).setWidth 32, (Config.imageSvn b).setWidth 32]
    (stOk, sliceB (l.flatMap fun w => bytesLE 4 w.toNat) 0 64, s)) s)

/-- BH_TEMPn and BH_SUPPLYn (R313, R334). -/
def State.bhTemp (s : State) (n : Nat) : BitVec 16 := SMap.get (fun _ => 0) s.bh.temps n
def State.bhVolt (s : State) (n : Nat) : BitVec 16 := SMap.get (fun _ => 0) s.bh.volts n
def State.bhCurrent (s : State) (n : Nat) : BitVec 16 := SMap.get (fun _ => 0) s.bh.currents n

/-- READ_SENSORS (R319). -/
def execReadSensors (src : MsgSrc) (body : List Byte) (s : State) : Host.Outcome State Fault Refusal :=
  .next (bhMsg src body 2 false .both (sized 0 fun _ _ s =>
    let t := (List.range 24).flatMap fun n => bytesLE 2 (s.bhTemp n).toNat
    let v := (List.range 9).flatMap fun n => bytesLE 2 (s.bhVolt n).toNat ++ bytesLE 2 (s.bhCurrent n).toNat
    (stOk, t ++ v, s)) s)

/-- What READ_LOG has gathered: entries, and entries whose CRC failed. -/
structure LogScan where
  got : List (List Byte)
  bad : Nat

/-- One entry of the log area is met (R316): an erased one and one below the first SEQ are passed by. -/
def LogScan.meet (x : LogScan) (first count : Nat) (e : List Byte) : LogScan :=
  let seq := leNat (e.take 4)
  if seq = 0xFFFFFFFF || decide (seq < first) || decide (count ≤ x.got.length) then x
  else if leNat (sliceB e 60 4) ≠ (crc32Bytes (e.take 60)).toNat then { x with bad := x.bad + 1 }
  else { x with got := x.got ++ [e] }

/-- READ_LOG (R316, R319): oldest first from the write pointer on. -/
def execReadLog (src : MsgSrc) (body : List Byte) (s : State) : Host.Outcome State Fault Refusal :=
  .next (bhMsg src body 3 false .both (sized 8 fun body _ s =>
    let first := leNat (body.take 4)
    let count := leNat (body.drop 4)
    if count = 0 || decide (63 < count) then s.refused stBadCommand
    else
      let x := (List.range logEntries).foldl (fun (x : LogScan) i =>
        x.meet first count (s.bh.flash.readN erased (logBase + 64 * ((s.bh.logPtr + i) % logEntries)) 64)) ⟨[], 0⟩
      (stOk, bytesLE 4 x.got.length ++ bytesLE 4 x.bad ++ x.got.flatten, s)) s)

/-- UPDATE_ERASE (R320). Accepted steps are logged (R316). -/
def execUpdateErase (src : MsgSrc) (body : List Byte) (s : State) : Host.Outcome State Fault Refusal :=
  .next (bhMsg src body 0x10 true .update (sized 8 fun body _ s =>
    let off := leNat (body.take 4)
    let n := leNat (body.drop 4) * sectorBytes
    if off % sectorBytes ≠ 0 || decide (slotSize < off + n) then s.refused stBadCommand
    else
      let f := Memory.clear s.bh.flash (slotBase s.inactiveB + off) n
      let d := if s.inactiveB then s.bh.delivered
        else s.bh.delivered &&& ~~~maskOf 256 ((List.range (n / sectorBytes)).map fun i => off / sectorBytes + i)
      (stOk, [], State.bhLogOpen { s with bh := { s.bh with flash := f, delivered := d, verified := false } } 3)) s)

/-- UPDATE_WRITE (R320). -/
def execUpdateWrite (src : MsgSrc) (body : List Byte) (s : State) : Host.Outcome State Fault Refusal :=
  .next (bhMsg src body 0x11 true .update (fun body _ s =>
    let off := leNat (sliceB body 0 4)
    let n := leNat (sliceB body 4 4)
    if body.length ≠ 8 + n || decide (3840 < n) || off % 256 ≠ 0 || n % 256 ≠ 0 || decide (slotSize < off + n) then
      s.refused stBadCommand
    else
      let a := slotBase s.inactiveB + off
      if (s.slotBytes a n).any fun b => b ≠ erased then s.refused stNotErased
      else
        let f := Memory.writeN erased s.bh.flash a (body.drop 8)
        (stOk, [], State.bhLogOpen { s with bh := { s.bh with flash := f, verified := false } } 3)) s)

/-- A slot's header signature and code digest hold (R321). Those of the image that the device was delivered with do, while all of it is
there (DESIGN CHOICE, log entry 9). -/
def State.imageGood (s : State) (b : Bool) : Bool :=
  let h := s.slotHeader b
  let n := (Config.imageCodeLen h).toNat
  (!b && s.bh.delivered = BitVec.allOnes 256) ||
  (decide (n + 4096 ≤ slotSize) &&
    ecdsaVerify Config.bavournKey (sha384 (h.take 3968)) (Config.imageSig h) &&
    sha384 (s.slotBytes (slotBase b + 4096) n) = Config.imageDigest h)

/-- A slot's SVN (R321). -/
def State.slotSvn (s : State) (b : Bool) : BitVec 6 := Config.imageSvn (s.slotHeader b)

/-- UPDATE_VERIFY (R321). -/
def execUpdateVerify (src : MsgSrc) (body : List Byte) (s : State) : Host.Outcome State Fault Refusal :=
  .next (bhMsg src body 0x12 true .update (sized 0 fun _ _ s =>
    let b := s.inactiveB
    if !s.imageGood b then (stDenied, [], s.secEvent 2)
    else if (s.slotSvn b).toNat < s.bh.svn.toNat then (stDenied, [], s.secEvent 5)
    else
      (stOk, bytesLE 4 (s.slotSvn b).toNat ++ bytesLE 4 (Config.imageVersion (s.slotHeader b)).toNat,
        State.bhLogOpen { s with bh := { s.bh with verified := true } } 3)) s)

/-- The boot record is written, both copies (R315, R321, R322). -/
def State.setBoot (s : State) (nextB fallback : Bool) : State :=
  { s with bh := { s.bh with boot := Copies.of BootRec.bytes ⟨nextB, fallback⟩ } }

/-- UPDATE_ACTIVATE (R321). -/
def execUpdateActivate (src : MsgSrc) (body : List Byte) (s : State) : Host.Outcome State Fault Refusal :=
  .next (bhMsg src body 0x13 true .update (sized 0 fun _ _ s =>
    if !s.bh.verified then s.refused stNotReady
    else (stOk, [], (s.setBoot s.inactiveB false).bhLogOpen 3)) s)

/-- A number of 48 n bytes, most significant first (R326). -/
def beBits (n : Nat) (l : List Byte) : BitVec n := BitVec.ofNat n (beNat l)

/-- The 48 bytes of a digest or challenge, most significant first. -/
def bytesBE48 (d : BitVec 384) : List Byte := (bytesLE 48 d.toNat).reverse

/-- The body length of each kind (R326). -/
def proposalLen (kind : Nat) : Option Nat :=
  match kind with
  | 0 => some 1088
  | 1 => some 104
  | 2 => some 8
  | 3 => some 16
  | 4 => some 192
  | 5 => some 4
  | _ => none

/-- The body of a proposal. -/
def Proposal.body (p : Proposal) : List Byte := p.bytes.drop 64

/-- SHA-384 over header and body (R326). -/
def Proposal.digest (p : Proposal) : BitVec 384 := sha384 p.bytes

/-- A PROPOSE that is malformed or for another device (R326, R327). -/
def State.proposalBad (s : State) (l : List Byte) : Bool :=
  decide (l.length < 64) || leNat (sliceB l 0 4) ≠ 0xB0A70001 ||
  (match proposalLen (l.getD 4 0).toNat with
    | none => true
    | some n => leNat (sliceB l 12 4) ≠ n || l.length ≠ 64 + n) ||
  (l.getD 5 0).toNat ≠ s.ez.id.toNat

/-- The lifecycle forbids the change: one that is not the next move, or one without installed keys (R327, R329). -/
def State.proposalForbidden (s : State) (p : Proposal) : Bool :=
  p.kind = 5 && (decide (2 < leNat p.body) || leNat p.body ≠ s.bh.lifecycle.toNat + 1 || !s.bh.keysSet)

/-- PROPOSE (R327). -/
def execPropose (src : MsgSrc) (body : List Byte) (s : State) : Host.Outcome State Fault Refusal :=
  .next (bhMsg src body 0x20 true .both (fun body _ s =>
    let p : Proposal := ⟨body, false, false, s.now⟩
    if s.bh.proposal.isSome then s.refused stNotReady
    else if s.proposalBad body then s.refused stBadCommand
    else if leNat (sliceB body 8 4) ≠ s.bh.policySeq.toNat || s.proposalForbidden p then s.refused stDenied
    else (stOk, bytesBE48 p.digest, s.setProposal (some p))) s)

/-- The pending proposal, where the digest names it (R327). -/
def State.pendingOf (s : State) (digest : List Byte) : Option Proposal :=
  s.bh.proposal.filter fun p => p.digest = beBits 384 digest

/-- SIGN (R326, R327): the key is that of the party of the arriving port. -/
def execSign (src : MsgSrc) (body : List Byte) (s : State) : Host.Outcome State Fault Refusal :=
  .next (bhMsg src body 0x21 true .both (sized 144 fun body port s =>
    match s.pendingOf (body.take 48) with
    | none => s.refused stBadCommand
    | some p =>
      let key := if port then s.bh.keyA else s.bh.keyB
      if !(s.bh.keysSet && ecdsaVerify key p.digest (beBits 768 (body.drop 48))) then (stDenied, [], s.secEvent 3)
      else
        let p := { p with sigA := p.sigA || port, sigB := p.sigB || !port }
        (stOk, bytesLE 4 (p.sigA.toNat + 2 * p.sigB.toNat), s.setProposal (some p))) s)

/-- One context record (R323). -/
def entryRecOf (l : List Byte) : EntryRec where
  perms := BitVec.ofNat 32 (leNat (sliceB l 0 4))
  queues := BitVec.ofNat 16 (leNat (sliceB l 4 2))
  triggers := BitVec.ofNat 16 (leNat (sliceB l 6 2))
  members := BitVec.ofNat 64 (leNat (sliceB l 8 8))
  engines := BitVec.ofNat 128 (leNat (sliceB l 16 16))
  captureQuota := leNat (sliceB l 32 8)
  sharedQuota := leNat (sliceB l 40 8)
  vectorQuota := leNat (sliceB l 48 8)

/-- APERTURE_MEMBERS in force (R323). -/
def State.apertureMembers (s : State) : Word64 := if s.bh.lifecycle = 0 then BitVec.allOnes 64 else s.bh.members

/-- The list in force has changed (R325): pairs no longer granted stop, BAR2 mappings of contexts without BAR2 end, and
apertures to members it no longer names are disabled. -/
def State.entryChange (s : State) : State :=
  let s := (List.range 256).foldl (fun s q => s.settlePair (Fin.ofNat 256 q)) s
  let s := { s with regions := s.regions.map fun (r : Nat × Region) =>
    (r.1, if bit (s.entryRec r.2.owner).perms 5 then r.2 else { r.2 with map := none }) }
  { s with host := { s.host with apSel := s.host.apSel.map fun (x : Nat × Word32) =>
    (x.1, if bit s.apertureMembers (fldN x.2 0 6) then x.2 else setBit x.2 8 false) } }

/-- A context's key is removed (R328). -/
def State.dropKey (s : State) (c : Nat) : State :=
  let g := s.keyOf c
  { s with bh := { s.bh with keys := SMap.del s.bh.keys c, keyBits := SMap.del s.bh.keyBits g } }

/-- A context gets a new key from the random source (R328). In RETURNED the key store is empty (R331). -/
def State.newKey (s : State) (c : Nat) : State :=
  if s.bh.lifecycle = 2 then s
  else
    let s := s.dropKey c
    let g := s.bh.keySeq + 1
    { s with bh := { s.bh with
        keySeq := g
        keys := SMap.put s.bh.keys c g
        keyBits := SMap.put s.bh.keyBits g (Config.newKey g) } }

/-- A drain or merge whose key is gone, or can be used no longer, ends DENIED (R164, R328, R331). -/
def State.stopKeyless (s : State) : State :=
  let objs := (s.fc.job.toList ++ s.fc.merges).map fun (j : Job) => match j with
    | .drain _ o => o
    | .merge _ _ _ o _ => o
  (objs.filter fun o => !s.keysUsable || s.keyOf (s.obj o).owner ≠ (s.obj o).keyGen).foldl (fun s o => s.stopWriter o stDenied) s

/-- A committed KEY_POLICY (R326, R328). -/
def State.keyPolicy (s : State) (l : List Byte) : State :=
  ((List.range 16).foldl (fun s c =>
    match (l.getD c 0).toNat with
    | 1 => s.newKey c
    | 2 => s.dropKey c
    | _ => s) s).stopKeyless

/-- A committed LIFECYCLE move (R329): every context key is destroyed and the key epoch advances. -/
def State.moveLifecycle (s : State) (target : Nat) : State :=
  let s := { s with bh := { s.bh with
    lifecycle := BitVec.ofNat 2 target
    keyEpoch := s.bh.keyEpoch + 1
    keys := []
    keyBits := [] } }
  s.stopKeyless.entryChange

/-- The change of a proposal takes effect (R326). -/
def State.applyProposal (s : State) (p : Proposal) : State :=
  let l := p.body
  match p.kind with
  | 0 =>
    let recs := (List.range 16).map fun c => (c, entryRecOf (sliceB l (64 + 64 * c) 64))
    State.entryChange { s with bh := { s.bh with members := BitVec.ofNat 64 (leNat (sliceB l 8 8)), recs := recs } }
  | 1 => { s with bh := { s.bh with debugPolicy := BitVec.ofNat 32 (leNat (sliceB l 0 4)), ownerKey := beBits 768 (sliceB l 4 96) } }
  | 2 => { s with bh := { s.bh with updatePolicy := BitVec.ofNat 32 (leNat (sliceB l 0 4)) } }
  | 3 => s.keyPolicy l
  | 4 => { s with bh := { s.bh with keyA := beBits 768 (sliceB l 0 96), keyB := beBits 768 (sliceB l 96 96), keysSet := true } }
  | 5 => s.moveLifecycle (leNat l)
  | _ => s

/-- Both signatures are needed, outside kinds 0 to 4 in FACTORY (R327). -/
def State.needsSigs (s : State) (p : Proposal) : Bool := !(s.bh.lifecycle = 0 && decide (p.kind ≤ 4))

/-- COMMIT (R327, R316). With debug UNLOCKED no fuse is blown, so a LIFECYCLE move completes DENIED (R331; DESIGN CHOICE, log
entry 25). -/
def execCommit (src : MsgSrc) (body : List Byte) (s : State) : Host.Outcome State Fault Refusal :=
  .next (bhMsg src body 0x22 true .both (sized 48 fun body _ s =>
    match s.pendingOf body with
    | none => s.refused stBadCommand
    | some p =>
      if s.needsSigs p && !(p.sigA && p.sigB) then (stDenied, [], s.secEvent 4)
      else if p.kind = 5 && s.bh.unlocked then s.refused stDenied
      else
        let seq := s.bh.policySeq + 1
        let s := s.applyProposal p
        let s := { s with bh := BhSt.save { s.bh with policySeq := seq, proposal := none } }
        (stOk, bytesLE 4 seq.toNat,
          s.bhLog (if p.kind = 5 then 6 else 4) ((bytesBE48 p.digest).take 32 ++ bytesLE 4 seq.toNat))) s)

/-- CANCEL (R327). -/
def execCancel (src : MsgSrc) (body : List Byte) (s : State) : Host.Outcome State Fault Refusal :=
  .next (bhMsg src body 0x23 true .both (sized 48 fun body _ s =>
    match s.pendingOf body with
    | none => s.refused stBadCommand
    | some _ => (stOk, [], s.setProposal none)) s)

/-- GET_PROPOSAL (R319). -/
def execGetProposal (src : MsgSrc) (body : List Byte) (s : State) : Host.Outcome State Fault Refusal :=
  .next (bhMsg src body 0x24 false .both (sized 0 fun _ _ s =>
    (stOk, bytesLE 4 s.bhProposal.toNat ++ (match s.bh.proposal with | some p => p.bytes | none => []), s)) s)

/-- PROPOSAL_EXPIRY (R327). -/
def execProposalExpiry (s : State) : Host.Outcome State Fault Refusal := .next (inRun s State.expireProposal)

/-- DEBUG_CHALLENGE (R330): a later challenge replaces an earlier one. -/
def execDebugChallenge (src : MsgSrc) (body : List Byte) (s : State) : Host.Outcome State Fault Refusal :=
  .next (bhMsg src body 0x30 true .both (sized 4 fun body _ s =>
    let c := Config.challenge s.bh.chalSeq
    (stOk, bytesBE48 c, { s with bh := { s.bh with
      challenge := some (c, BitVec.ofNat 32 (leNat body), s.now)
      chalSeq := s.bh.chalSeq + 1 } })) s)

/-- The key a response may be signed with (R330): kind 0 the owner's, 1 the vendor's (log entry 25). -/
def State.debugKey (s : State) (kind : Nat) : Option (BitVec 768) :=
  match kind with
  | 0 => if bit s.bh.debugPolicy 0 then some s.bh.ownerKey else none
  | 1 => if s.bh.lifecycle ≠ 1 || bit s.bh.debugPolicy 1 then some Config.vendorDebugKey else none
  | _ => none

/-- What a response signs (R330): the challenge, GBL_ID and the scope. -/
def State.debugDigest (s : State) (c : BitVec 384) (scope : Word32) : BitVec 384 :=
  sha384 (bytesBE48 c ++ bytesLE 4 s.gblId.toNat ++ bytesLE 4 scope.toNat)

/-- The scope a good response unlocks (R330). -/
def State.debugScope (s : State) (body : List Byte) : Option Word32 :=
  match s.bh.challenge, s.debugKey (leNat (body.take 4)) with
  | some (c, scope, t), some k =>
    if decide (s.now < t + challengeTicks) && ecdsaVerify k (s.debugDigest c scope) (beBits 768 (body.drop 4)) then
      some scope
    else none
  | _, _ => none

/-- A register of the core by its number, 0 the pc (R312). -/
def BhCore.regAt (c : BhCore) (n : Nat) : Word32 := if n = 0 then c.pc else SMap.get (fun _ => 0) c.x n

/-- What the internal debug port does in each lifecycle while debug is UNLOCKED (R331): the core is haltable in each; its SRAM
and registers are readable in FACTORY, the policy store in SECURED, and all of it is open in RETURNED, where the scope is full.
What the port does further the spec does not say. A read answers on the TAP. -/
def State.debugAct (s : State) (op : DebugOp) : State :=
  let lc := s.bh.lifecycle.toNat
  let core (f : BhCore → BhCore) : State := { s with bh := { s.bh with core := f s.bh.core } }
  if !Config.scopeOpens s.bh.scope op && lc ≠ 2 then s
  else
    match op with
    | .halt => core fun c => { c with halted := true }
    | .run => core fun c => { c with halted := false, wdAt := s.now }
    | .readSram a => if lc = 1 then s else s.send (.debugData (Memory.read 0 s.bh.core.sram a.toNat).toNat)
    | .readReg n => if lc = 1 then s else s.send (.debugData (s.bh.core.regAt n.val).toNat)
    | .readPolicy o =>
      if lc = 0 then s else s.send (.debugData (((s.bh.store.read Policy.bytes).bytes.getD o.toNat erased).toNat))
    | .writeSram a v => if lc = 2 then core fun c => { c with sram := Memory.write 0 c.sram a.toNat v } else s
    | .writeReg n v =>
      if lc = 2 then core fun c => if n.val = 0 then { c with pc := v } else { c with x := SMap.put c.x n.val v } else s
    | .other _ => s

/-- A private instruction in the TAP reaches the port while debug is UNLOCKED, and acts as BYPASS otherwise (R332). -/
def State.tapReaches (s : State) : State :=
  match s.dev.tap with
  | .debugAccess op => if s.bh.unlocked then s.debugAct op else s
  | _ => s

/-- The instruction as which the TAP acts (R332). -/
def State.tapActs (s : State) : TapInst :=
  match s.dev.tap with
  | .debugAccess op => if s.bh.unlocked then .debugAccess op else .bypass
  | t => t

/-- DEBUG_RESPONSE (R330): it consumes the challenge; an unlock is logged, makes the keys unusable, so that a drain or merge
under way ends DENIED, and opens the port to a private instruction that the TAP holds. In RETURNED the scope is full (R331). -/
def execDebugResponse (src : MsgSrc) (body : List Byte) (s : State) : Host.Outcome State Fault Refusal :=
  .next (bhMsg src body 0x31 true .both (sized 100 fun body _ s =>
    let r := s.debugScope body
    let s := { s with bh := { s.bh with challenge := none } }
    match r with
    | some scope =>
      let scope : Word32 := if s.bh.lifecycle = (2 : BitVec 2) then BitVec.allOnes 32 else scope
      let s := State.bhLogOpen { s with bh := { s.bh with unlocked := true, scope := scope } } 5
      (stOk, [], s.stopKeyless.tapReaches)
    | none => (stDenied, [], s.secEvent 1)) s)

/-- DEBUG_CHALLENGE_EXPIRY (R330). -/
def execDebugChallengeExpiry (s : State) : Host.Outcome State Fault Refusal :=
  .next (inRun s fun s =>
    match s.bh.challenge with
    | some (_, _, t) => if t + challengeTicks ≤ s.now then { s with bh := { s.bh with challenge := none } } else s
    | none => s)

/-- Debug returns to LOCKED; a lock is logged (R330). A core that the port has halted runs on (log entry 147). -/
def State.debugLock (s : State) : State :=
  if s.bh.unlocked then
    State.bhLogOpen { s with bh := { s.bh with
      unlocked := false
      scope := 0
      core := { s.bh.core with halted := false, wdAt := if s.bh.core.halted then s.now else s.bh.core.wdAt } } } 5
  else s

/-- DEBUG_LOCK (R330). -/
def execDebugLock (src : MsgSrc) (body : List Byte) (s : State) : Host.Outcome State Fault Refusal :=
  .next (bhMsg src body 0x32 false .both (sized 0 fun _ _ s => (stOk, [], s.debugLock)) s)

/-- SET_PARTY_KEYS (R319): FACTORY only. -/
def execSetPartyKeys (src : MsgSrc) (body : List Byte) (s : State) : Host.Outcome State Fault Refusal :=
  .next (bhMsg src body 0x40 true .pcie (sized 192 fun body _ s =>
    if s.bh.lifecycle ≠ 0 then s.refused stDenied
    else (stOk, [], { s with bh := BhSt.save { s.bh with
      keyA := beBits 768 (body.take 96)
      keyB := beBits 768 (body.drop 96)
      keysSet := true } })) s)

/-- A control message comes in on the management port (R317): packets that make none of it are dropped. -/
def mctpControl (pkts : Packets) (s : State) (f : List Byte → State → State) : State :=
  inRun s fun s =>
    match s.assemble pkts with
    | some l => f l s
    | none => s

/-- SET_ENDPOINT_ID (R317). The bodies of the control messages are DSP0236's (PRESUMED, log entry 26): an operation and the ID,
of which 0 and 0xFF are invalid. -/
def execSetEndpointId (eid : Byte) (pkts : Packets) (s : State) : Host.Outcome State Fault Refusal :=
  .next (mctpControl pkts s fun l s =>
    if l.length ≠ 2 || l.getD 1 0 ≠ eid then s
    else if eid = 0 || eid = 0xFF then s.send (.mctpCtl [2])
    else State.send { s with bh := { s.bh with eid := eid } } (.mctpCtl [0, 0, eid, 0]))

/-- GET_ENDPOINT_ID (R317; log entry 26). -/
def execGetEndpointId (pkts : Packets) (s : State) : Host.Outcome State Fault Refusal :=
  .next (mctpControl pkts s fun _ s => s.send (.mctpCtl [0, s.bh.eid, 0, 0]))

/-- GET_MCTP_VERSION_SUPPORT (R317; log entry 26): one version, 1.3. -/
def execGetMctpVersionSupport (pkts : Packets) (s : State) : Host.Outcome State Fault Refusal :=
  .next (mctpControl pkts s fun _ s => s.send (.mctpCtl [0, 1, 0xF1, 0xF3, 0xF0, 0]))

/-- GET_MESSAGE_TYPE_SUPPORT (R317; log entry 26): type 0x7E. -/
def execGetMessageTypeSupport (pkts : Packets) (s : State) : Host.Outcome State Fault Refusal :=
  .next (mctpControl pkts s fun _ s => s.send (.mctpCtl [0, 1, 0x7E]))

/-- GET_VENDOR_DEFINED_MESSAGE_SUPPORT (R317; log entry 26): the PCI Vendor ID, no further set, and a version that the spec
does not state. -/
def execGetVendorDefinedMessageSupport (pkts : Packets) (s : State) : Host.Outcome State Fault Refusal :=
  .next (mctpControl pkts s fun _ s =>
    let (v, s) := s.takeFree
    s.send (.mctpCtl [0, 0xFF, 0, fld Config.pciVendorId 8 8, fld Config.pciVendorId 0 8, fld v 8 8, fld v 0 8]))

/-- The watchdog's 100 ms (R312). -/
def watchdogTicks : Nat := 100 * msTicks

/-- The core's restart (R314): it begins anew from its active slot, and its watchdog with it. The spec gives its registers no
value then; they take those of reset (log entry 134). -/
def BhCore.restart (c : BhCore) (now : Nat) : BhCore := { BhCore.reset with sram := c.sram, wdAt := now }

/-- BOATHOUSE_WATCHDOG_EXPIRY (R312, R314, R322): 100 ms after firmware last restarted the watchdog, with the core at `pc`, the
core alone is reset. Messages in progress complete ABORTED, VERIFIED is lost, a proposal survives. -/
def execBoathouseWatchdogExpiry (pc : Word32) (s : State) : Host.Outcome State Fault Refusal :=
  .next (inRun s fun s =>
    if s.bh.core.halted || s.now < s.bh.core.wdAt + watchdogTicks then s
    else
      let s := { s with bh := { s.bh with core := { s.bh.core with pc := pc } } }
      let s := s.umpEvent 71 s.bh.core.pc
      let s := s.finishAll (fun c => c.opc = 0x3A && c.stage = .started && c.target = s.ez.id) stAborted
      let s := if s.bh.mbxBusy then s.mbxDone stAborted [] else s
      State.bhLogOpen { s with bh := { s.bh with verified := false, core := s.bh.core.restart s.now } } 10)

/-- Nominal supply voltages in units of 200 uV, in the order of sources 61 to 69 (R298, R361). -/
def supplyNominal : List Int := [3750, 4500, 14000, -5000, 4250, 6000, 5500, 9000, 16500]

/-- A supply lies outside 5 % of nominal (R298, R361). -/
def supplyBad (n : Nat) (v : BitVec 16) : Bool :=
  let x := supplyNominal.getD n 0
  decide (x.natAbs < 20 * (v.toInt - x).natAbs)

/-- An indexed list as a table. -/
def tableOf {α : Type} (n : Nat) (l : List α) : SMap α := (List.range n).filterMap fun i => (l[i]?).map fun v => (i, v)

/-- SENSOR_READ (R298, R313). Every reading beyond a limit is an event (DEDUCED, log entry 27). -/
def execSensorRead (temps : List (BitVec 16)) (volts currents : List (BitVec 16)) (s : State) :
    Host.Outcome State Fault Refusal :=
  .next (inRun s fun s =>
    let s := s.kick
    let s := { s with bh := { s.bh with temps := tableOf 24 temps, volts := tableOf 9 volts, currents := tableOf 9 currents } }
    let hot (lim : Int) (n : Nat) : Bool := decide (16 * lim < (s.bhTemp n).toInt)
    let ev (s : State) (b : Bool) (src : Nat) (d : Word32) : State := if b then s.umpEvent src d else s
    let t := (List.range 2).foldl (fun t k => ev t (hot 95 (20 + 2 * k) || hot 95 (21 + 2 * k)) 35 (placeN 32 0 k)) s
    let t := (List.range 24).foldl (fun t n => ev t (hot 100 n) 59 (placeN 32 0 n)) t
    let t := (List.range 24).foldl (fun t n => ev t (hot 107 n) 60 (placeN 32 0 n)) t
    (List.range 9).foldl (fun t n =>
      ev t (volts[n]?.isSome && supplyBad n (s.bhVolt n)) (61 + n) ((s.bhVolt n).setWidth 32)) t)

/-- The highest of the eight lane sensors of a die (R367). -/
def State.dieTemp (s : State) (die : Nat) : Int :=
  (List.range 8).foldl (fun m i => max m (s.bhTemp (8 * die + i)).toInt) (s.bhTemp (8 * die)).toInt

/-- A cause of derating: raised above `hi`, ended after 100 readings within `lo` (R367). The count of readings within, and
whether the cause ends now. -/
def derateRun (run diff lo : Nat) : Nat × Bool :=
  let n := if diff ≤ lo then run + 1 else 0
  (n, decide (100 ≤ n))

/-- One lane at the comparison on regatta tick `now` (R367, R368). -/
def Lane.derate (l : Lane) (raiseT endT raiseV endV : Bool) (vddh : BitVec 16) (now : Nat) : Lane :=
  let t := raiseT || (l.derTemp && !endT)
  let v := raiseV || (l.derVolt && !endV)
  { l with
    derTemp := t
    derVolt := v
    derSeen := l.derSeen || t || v
    derHist := if (t || v) = l.derated then l.derHist else (now, t || v) :: l.derHist
    vddh := vddh }

/-- The lanes that are derated (R367). -/
def State.deratedLanes (s : State) : BitVec 16 := maskOf 16 ((List.range 16).filter fun k => (s.lane k).derated)

/-- CROSS_DIE_CHECK (R367). -/
def execCrossDieCheck (vddh0 vddh1 : BitVec 16) (s : State) : Host.Outcome State Fault Refusal :=
  .next (inRun s fun s =>
    let d := s.dieTemp 1 - s.dieTemp 0
    let v := (vddh1.toInt - vddh0.toInt).natAbs
    let (tr, te) := derateRun s.dev.tempRun d.natAbs 192
    let (vr, ve) := derateRun s.dev.voltRun v 120
    let before := s.deratedLanes
    let s := { s with dev := { s.dev with tempRun := tr, voltRun := vr } }
    let s := { s with lanes := (List.range 16).map fun k =>
      (k, (s.lane k).derate (decide (240 < (if k < 8 then -d else d))) te (decide (150 < v)) ve (if k < 8 then vddh0 else vddh1) s.rtick) }
    if s.deratedLanes &&& ~~~before ≠ 0 then s.umpEvent 58 (s.deratedLanes.setWidth 32) else s)

/-- IDCODE (R332): version 0xB, part 0x4256, Bavourn's JEP106 code, which the spec does not state, and IEEE 1149.1's bit 0. -/
def tapIdcode : Word32 := placeN 32 28 0xB ||| placeN 32 12 0x4256 ||| place 32 1 Config.jep106 ||| 1

/-- TAP_INSTRUCTION_LOAD (R332): EXTEST and the 1149.6 tests put the device in SAFE, and private instructions reach the internal
debug port while debug is UNLOCKED. -/
def execTapInstructionLoad (i : TapInst) (s : State) : Host.Outcome State Fault Refusal :=
  .next (inRun s fun s =>
    let set (s : State) (i : TapInst) : State := { s with dev := { s.dev with tap := i } }
    match i with
    | .extest | .extestPulse | .extestTrain => (set s i).enterSafe
    | .debugAccess _ => (set s i).tapReaches
    | _ => set s i)

end Sys2Proof.Machine
end

