-- ==== Sys2Proof/Machine/Umpire.lean ====
section
/-! DEFINITION. The Umpire as commands (R298 to R311): events, wire faults, windows, reaction timers, recovery, clears and
injection. -/

namespace Sys2Proof.Machine

/-- Ticks in 10 us, the unit of the reaction time (R311). -/
def tenUsTicks : Nat := 16000

/-- The pair has read valid for 3 consecutive samples (R300). -/
def UmpSrc.valid3 (r : UmpSrc) : Bool := decide (3 ≤ r.good)

/-- UMPIRE_EVENT (R299, R301, R302). A reserved source never reports an event (R298). -/
def execUmpireEvent (src : SourceId) (detail : Word32) (s : State) : Host.Outcome State Fault Refusal :=
  .next (inRun s fun s => s.umpEvent src.val detail)

/-- A wire fault is detected (R300, R302). What the source held before no longer comes back with a clear of this cycle. -/
def State.umpWire (s : State) (n : Nat) : State :=
  let was := (s.src n).faulty
  let s := (s.updSrc n fun r => { r with wire := true, bad := 3, pre := none }).umpHist n 1 0
  if was then s else s.umpSevere n

/-- WIRE_FAULT (R299, R300): the pair has read Invalid on 3 samples, and its wiring holds it so for `cycles` CK_C cycles
more (log entry 21). -/
def execWireFault (src : SourceId) (level : Bool) (cycles : Nat) (s : State) : Host.Outcome State Fault Refusal :=
  .next (inRun s fun s =>
    let again := 3 ≤ (s.src src.val).bad
    let t := s.updSrc src.val fun r =>
      { r with pairP := level, pairN := level, good := 0, bad := 3, wireTo := s.ckC + 1 + cycles, wireLvl := level }
    if again then t else t.umpWire src.val)

/-- The sample of a pair at the edge of CK_C cycle c (R299). -/
def UmpSrc.sampled (r : UmpSrc) (c : Nat) : UmpSrc :=
  match r.heldAt c with
  | some b => { r with pairP := b, pairN := b, good := 0, bad := min 3 (r.bad + 1) }
  | none => { r with pairP := false, pairN := true, bad := 0, good := min 3 (r.good + 1) }

/-- One pair is sampled: the third consecutive Invalid sample is a wire fault (R299). -/
def State.samplePair (s : State) (n : Nat) : State :=
  let r := (s.src n).sampled s.ckC
  let t := s.setSrc n r
  if r.bad = 3 && (s.src n).bad ≠ 3 then t.umpWire n else t

/-- Every pair is sampled at a CK_C edge (R299), once the vectors of the cycle before it are on their way. A source that the
state does not list has an Idle pair. -/
def State.samplePairs (s : State) : State :=
  if s.now % 2 = 0 then inRun s fun s => (s.umpSrcs.map (·.1)).foldl State.samplePair s.sendSevere else s

/-- UMPIRE_WINDOW_CLOSE (R301). -/
def execUmpireWindowClose (src : SourceId) (s : State) : Host.Outcome State Fault Refusal :=
  .next (inRun s fun s =>
    let r := s.src src.val
    if r.st = .counting && decide (r.winAt + fldN r.win 0 16 * msTicks ≤ s.now) then
      s.setSrc src.val { r with st := .clear, count := 0 }
    else s)

/-- The tick at which a source's reaction timer expires (R302, R311). -/
def UmpSrc.dueAt (r : UmpSrc) : Nat := r.sevAt + fldN r.timer 0 20 * tenUsTicks

/-- UMP_SRCn_CFG.ACTION. -/
def UmpSrc.action (r : UmpSrc) : Nat := fldN r.cfg 8 3

/-- The engines ENGINE_HALT affects: those with a channel of the source's lane, or those of UMP_HALT_MASK (R303). -/
def State.haltTargets (s : State) (n : Nat) : List Nat :=
  (s.enginesIn Engine.active).filter fun e =>
    if n < 32 then (List.range 16).any fun j => bit (s.eng e).crew (16 * (n % 16) + j) else bit s.ump.halt e

/-- One engine is stopped as an ABORT would stop it, and its coupled peers fault (R102, R289, R303). -/
def State.umpHalt (s : State) (e : Nat) : State :=
  let r := s.eng e
  let s := s.sendCrew r 5 0 s.rtick
  if r.st = .held then s.abortHeat e else s.abortAt e s.rtick

/-- The action of a source (R303). -/
def State.umpAct (s : State) (n : Nat) : State :=
  match (s.src n).action with
  | 1 => (s.haltTargets n).foldl State.umpHalt s
  | 2 => s.enterSafe
  | 3 => s.raiseEasyAll 2 n
  | _ => s

/-- A source is escalated: its quiet period starts, and the Boathouse logs it (R302, R307, R316). -/
def State.umpEscalate (s : State) (n : Nat) : State :=
  let s := ((s.updSrc n fun r => { r with st := .escalated, quietAt := s.now }).umpHist n 3 0).bhLogOpen 7
  if bit s.ump.irq 9 then s.sendVector (fldN s.ump.irq 0 8) else s

/-- The sources whose timers expire in CK_C cycle c (R304). -/
def State.expiring (s : State) (c : Nat) : List Nat :=
  (List.range 96).filter fun n => (s.src n).st = .severe && (s.src n).dueAt / 2 = c

/-- The expiries of one CK_C cycle: the sources are escalated, and their actions are taken in the order DEVICE_SAFE,
REGATTA_EASYALL, ENGINE_HALT, in rising source within one action (R303, R304). -/
def State.expire (s : State) (c : Nat) : State :=
  let l := s.expiring c
  let s := l.foldl State.umpEscalate s
  ((l.filter fun n => (s.src n).action = 2) ++ (l.filter fun n => (s.src n).action = 3) ++
    l.filter fun n => (s.src n).action = 1).foldl State.umpAct s

/-- REACTION_TIMER_EXPIRY (R303, R304). -/
def execReactionTimerExpiry (src : SourceId) (s : State) : Host.Outcome State Fault Refusal :=
  .next (inRun s fun s =>
    let r := s.src src.val
    if r.st = .severe && decide (r.dueAt ≤ s.now) then s.expire (r.dueAt / 2) else s)

/-- QUIET_RECOVERY (R302). -/
def execQuietRecovery (src : SourceId) (s : State) : Host.Outcome State Fault Refusal :=
  .next (inRun s fun s =>
    let r := s.src src.val
    if r.st = .escalated && !r.wire && decide (r.quietAt + fldN r.win 16 16 * msTicks ≤ s.now) then
      (s.setSrc src.val { r with st := .clear, count := 0, recoveries := satInc r.recoveries }).umpHist src.val 4 0
    else s)

/-- A source as it was before the events of CK_C cycle c (R304). -/
def UmpSrc.beforeEvents (r : UmpSrc) (c : Nat) : UmpSrc :=
  match r.pre with
  | some p => if p.cyc = c then
      { r with st := p.st, count := p.count, winAt := p.winAt, sevAt := p.sevAt, quietAt := p.quietAt } else r
  | none => r

/-- The history entries of source n of one kind that the present CK_C cycle has made. -/
def State.freshOf (s : State) (n kind : Nat) : List UmpEntry :=
  if s.ump.cyc = s.ckC then s.ump.fresh.filter fun x => x.src = n && x.kind = kind else []

/-- The entry to SEVERE that the events of this CK_C cycle made is taken back, since a clear of the cycle comes before them
(R304). -/
def State.unSevere (s : State) (n : Nat) : State :=
  let u := s.ump.rebuild (s.ump.fresh.filter fun x => !(x.src = n && x.kind = 2))
  { s with ump := { u with sevIrq := u.sevIrq.filter fun x => x.1 ≠ n } }

/-- The events of this CK_C cycle, k of them, take effect after a clear: they open a new window (R304). -/
def State.reEvents (s : State) (n k : Nat) : State :=
  let t := s.updSrc n fun r => (List.range k).foldl (fun r _ => if r.reachesN then { r with st := .severe } else r.onEvent s.now) r
  if (t.src n).reachesN || (t.src n).st = .severe then
    if s.freshOf n 2 = [] then t.umpSevere n else t.updSrc n fun r => { r with st := .severe, sevAt := s.now }
  else if s.freshOf n 2 = [] then t else t.unSevere n

/-- The clear itself: the timer is stopped, the window closed and the count 0; WIRE clears once the pair has read valid on 3
samples, and after a wire fault a pair that still reads Invalid is judged anew; a run of Invalid samples that is no wire fault yet goes
on (R299, R300, R302, R304). -/
def State.clearSrc (s : State) (n : Nat) : State :=
  let r := (s.src n).beforeEvents s.ckC
  let k := (s.freshOf n 0).length
  let t := s.setSrc n { r with st := .clear, count := 0, wire := r.wire && !r.valid3, bad := if r.wire then 0 else r.bad, pre := none }
  let t := if r.faulty then t.umpHist n 5 0 else t
  if k = 0 then t else t.reEvents n k

/-- UMP_SRC_CLEAR (R300, R302, R304): a timer that expires in the same CK_C cycle takes its action first. -/
def execUmpSrcClear (src : SourceId) (s : State) : Host.Outcome State Fault Refusal :=
  .next (whenReady s fun s =>
    let r := s.src src.val
    let s := if r.st = .severe && decide (r.dueAt / 2 ≤ s.ckC) then s.expire (r.dueAt / 2) else s
    s.clearSrc src.val)

/-- UMP_SRC_FORCE (R309): the event crosses the same pair, on a reserved source too. -/
def execUmpSrcForce (src : SourceId) (s : State) : Host.Outcome State Fault Refusal :=
  .next (whenReady s fun s => s.umpTake src.val s.ump.forceDetail)

/-- UMP_WIRE_INJ (R310): accepted only in DIAG. The pair is held from this CK_C cycle on and sampled Invalid CYCLES times; GO reads 1
until the last pair held is released. -/
def execUmpWireInj (v : Word32) (s : State) : Host.Outcome State Fault Refusal :=
  .next (whenReady s fun s =>
    let fields : Word32 := v &&& 0xF17F
    let n := fldN v 0 7
    let e := s.ckC + 1 + fldN v 12 4
    if !bit v 31 then { s with ump := { s.ump with wireInj := fields } }
    else if s.mode ≠ .diag then { s with ump := { s.ump with refused := true } }
    else
      let t := { s with ump := { s.ump with wireInj := fields, injTo := max s.ump.injTo e } }
      if 96 ≤ n || fldN v 12 4 = 0 then t else t.updSrc n fun r => { r with injTo := e, injLvl := bit v 8 })

/-- A configuration value that R311 refuses. -/
def umpCfgBad (r : UmpReg) (v : Word32) : Bool :=
  match r with
  | .cfg => fldN v 0 8 = 0 || decide (4 ≤ fldN v 8 3)
  | .win => fldN v 0 16 = 0 || fldN v 16 16 = 0
  | .timer => fldN v 0 20 = 0 || decide (1000000 < fldN v 0 20)

/-- A source with one configuration register written (R311). -/
def UmpSrc.config (x : UmpSrc) (r : UmpReg) (v : Word32) : UmpSrc :=
  match r with
  | .cfg => { x with cfg := v &&& 0xFFF }
  | .win => { x with win := v }
  | .timer => { x with timer := v &&& 0xFFFFF }

/-- UMP_SRC_CONFIG_WRITE (R311). -/
def execUmpSrcConfigWrite (src : SourceId) (r : UmpReg) (v : Word32) (s : State) : Host.Outcome State Fault Refusal :=
  .next (whenReady s fun s =>
    if (s.src src.val).faulty then { s with ump := { s.ump with ignored := true } }
    else if umpCfgBad r v then { s with ump := { s.ump with refused := true } }
    else s.updSrc src.val fun x => x.config r v)

end Sys2Proof.Machine
end

