-- ==== Sys2Proof/Machine/Power.lean ====
section
/-! DEFINITION. Resets, modes, power groups and wake (R335 to R346), and single events of the Umpire's table (R298). -/

namespace Sys2Proof.Machine

/-- A channel after a reset: its registers as R49 gives them, its input where it was. -/
def Chan.restart (c : Chan) (now : Nat) : Chan := ({ Chan.reset with inputUv := c.inputUv }).judgeAt (now * 512)

/-- What a lane's calibration keeps in flash (R230, R237): results, failures and substitutions. -/
def CalLane.restart (l : CalLane) : CalLane :=
  { CalLane.reset with
    results := l.results
    fails := l.fails
    firstFail := l.firstFail
    retired := l.retired
    spState := if l.spState = 3 then 3 else 0
    carries := if l.spState = 3 then l.carries else 31
    driveSw := l.spState = 3
    strobeSw := l.spState = 3 }

/-- What calibration keeps in flash (R221, R315): saved slots and Survey corrections. The slots in use are the factory's
(R221). -/
def CalSt.restart (c : CalSt) : CalSt :=
  { CalSt.reset with flashSlots := c.flashSlots, flashTemps := c.flashTemps, savedAt := c.savedAt, corr := c.corr }

/-- The Boathouse after a reset: what flash holds is read back, fuses are kept, debug is LOCKED (R315, R330). -/
def BhSt.restart (b : BhSt) : BhSt :=
  { b.load with
    unlocked := false
    scope := 0
    verified := false
    fallback := false
    recovery := false
    mbxType := 0
    mbxLen := 0
    mbxBusy := false
    mbxJob := (0, [])
    mbxStatus := 0
    mbxRspLen := 0
    mbxReq := []
    mbxRsp := []
    temps := []
    volts := []
    currents := []
    challenge := none
    eid := 0
    core := BhCore.reset }

/-- Objects that drives hold; one still being written is lost (R166, R167). -/
def keptObjs (l : SMap FsObj) : SMap FsObj := l.map fun (x : Nat × FsObj) =>
  (x.1, if x.2.writing then { x.2 with live := false, writing := false, gen := nextGen x.2.gen, blocks := [], extents := [] }
    else if x.2.live then x.2 else { x.2 with blocks := [], extents := [] })

/-- The claim table after a reset: a spare that carries a channel stays calibration's (R192, R230, R291). -/
def keptClaims (l : SMap CalLane) : SMap Nat :=
  (l.filter fun (x : Nat × CalLane) => x.2.spState = 3).map fun (x : Nat × CalLane) => (256 + x.1, 16)

/-- Everything outside the always-on domain is reset (R49, R59, R103, R192, R331, R346): what stays is the always-on domain,
flash, fuses, the drives' objects, and what stands outside the device. -/
def State.wipe (s : State) : State :=
  { State.reset with
    pending := s.pending
    now := s.now
    freeCount := s.freeCount
    out := s.out
    dev := { DevSt.reset with variant := s.dev.variant }
    chans := s.chans.map fun (x : Nat × Chan) => (x.1, x.2.restart s.now)
    pins := s.pins
    objs := keptObjs s.objs
    cal := s.cal.restart
    calLanes := s.calLanes.map fun (x : Nat × CalLane) => (x.1, x.2.restart)
    host := { HostSt.reset with claims := keptClaims s.calLanes }
    bh := s.bh.restart
    power := { s.power with stopAt := none, stopReq := none }
    rs := s.rs
    sns := s.sns }

/-- A reset: debug locks, which the Boathouse logs, and everything outside the always-on domain is reset (R330, R346). -/
def State.deviceReset (s : State) : State := s.debugLock.wipe

/-- The reset's bit replaces AON_CAUSE [3:0] (R352). -/
def causeBit (c : Word32) (i : Nat) : Word32 := (c &&& ~~~0xF) ||| placeB 32 i true

/-- The latest reset is of this kind. -/
def State.resetCause (s : State) (i : Nat) : State :=
  { s with power := { s.power with cause := causeBit s.power.cause i } }

/-- The boot ROM accepts a slot, as UPDATE_VERIFY does (R321, R322). -/
def State.slotBoots (s : State) (b : Bool) : Bool := s.imageGood b && decide (s.bh.svn.toNat ≤ (s.slotSvn b).toNat)

/-- BOOT begins: the boot ROM verifies the firmware (R322). -/
def State.beginBoot (s : State) : State :=
  let b := s.bh.nextB
  let s := State.kick { s with power := { s.power with booting := true } }
  if s.slotBoots b then State.bhLogOpen (State.setBoot { s with bh := { s.bh with slotB := b } } b false) 1
  else if s.slotBoots (!b) then
    (State.bhLogOpen (State.setBoot { s with bh := { s.bh with slotB := !b, fallback := true } } b true) 2).bhLogOpen 1
  else { s with bh := { s.bh with recovery := true } }

/-- The device reaches DOCK (R220, R322, R340, R345): the rollback counter follows the firmware, the drive of FAULT_N by the
power logic ends, and a wake failure is reported. -/
def State.reachDock (s : State) : State :=
  let failed := s.power.wakeFailed
  let svn := s.slotSvn s.bh.slotB
  let s := { s with
    dev := { s.dev with base := .dock }
    bh := { s.bh with svn := if s.bh.svn.toNat < svn.toNat && !s.bh.unlocked then svn else s.bh.svn }
    power := { s.power with faultDrive := false, wakeFailed := false } }
  let s := if failed then (s.umpEvent 74 s.power.cause).bhLogOpen 8 else s
  s.calFirstDock

/-- BOOT_COMPLETE (R247, R270, R322, R335, R344): once enumeration and, in a regatta of several, the first skew survey are over,
on the root and on any member. A recovery boot stays in BOOT. -/
def execBootComplete (s : State) : Host.Outcome State Fault Refusal :=
  .next (inRun s fun s =>
    if s.dev.base ≠ .boot || !s.power.booting || s.bh.recovery || s.ez.enumBusy || !s.ez.enumDone then s
    else
      let safe := s.dev.safePend
      let s := { s with
        dev := { s.dev with ready := true, safePend := false, base := .dock }
        power := { s.power with booting := false, waking := false } }
      if safe then s.enterSafe else s.reachDock)

/-- A host device reset of this device (R290, R346). -/
def State.hostReset (s : State) : State := (s.deviceReset.resetCause 2).beginBoot

/-- The key of GBL_CTRL (R296). -/
def devResetKey : Nat := 0x0D4C

/-- GBL_CTRL_DEV_RESET (R290, R296). In recovery the register does not work (R322). -/
def execGblCtrlDevReset (v : Word32) (s : State) : Host.Outcome State Fault Refusal :=
  .next (inRun s fun s => if bit v 0 && fldN v 16 16 = devResetKey && !s.bh.recovery then s.hostReset else s)

/-- HOST_DEVICE_RESET (R266, R290): each kind of PCIe reset resets the root. -/
def execHostDeviceReset (r : HostReset) (s : State) : Host.Outcome State Fault Refusal :=
  .next (inRun s fun s =>
    match r with
    | .conventional | .hot | .flr => if s.isTop then s.hostReset else s)

/-- RESET_N (R346): the device waits for the release. -/
def execResetN (s : State) : Host.Outcome State Fault Refusal :=
  .next (inRun s fun s =>
    let s := s.deviceReset.resetCause 1
    { s with power := { s.power with booting := false } })

/-- RESET_N_RELEASE (R346): BOOT starts. -/
def execResetNRelease (s : State) : Host.Outcome State Fault Refusal :=
  .next (inRun s fun s => if s.dev.base = .boot && !s.power.booting then s.beginBoot else s)

/-- A MODE_SET HOLD is accepted (R337): a request on every RUNNING engine, with its coupled peers (R263). -/
def State.modeHold (s : State) (h : Hdr) : State :=
  let run := s.enginesIn fun r => r.st = .running
  let s := { s with dev := { s.dev with holdReq := true } }
  let s := run.foldl (fun s e => (s.sendCrew (s.eng e) 3 2 s.rtick).requestHold e 2) s
  if run.isEmpty then s.done h stOk
  else { s with dev := { s.dev with waits := s.dev.waits ++ [⟨h.sq, h.cid, 4, run⟩] } }

/-- A source whose action is DEVICE_SAFE is in the fault state (R305). -/
def State.safeSource (s : State) : Bool := s.umpSrcs.any fun (x : Nat × UmpSrc) => x.2.faulty && x.2.action = 2

/-- SAFE may be left (R305, R338). -/
def State.mayLeaveSafe (s : State) : Bool :=
  !s.safeSource && !(s.ea.latched && s.ea.safe) &&
  s.dev.tap ≠ .extest && s.dev.tap ≠ .extestPulse && s.dev.tap ≠ .extestTrain

/-- MODE_SET DOCK (R335 to R338). From SAFE it ends a device hold request that is still in force, as any MODE_SET DOCK does. -/
def State.modeDock (s : State) (h : Hdr) : State :=
  match s.mode with
  | .hold | .run =>
    if !s.dev.holdReq then s.done h stNotReady
    else
      State.settleModes { s with dev := { s.dev with holdReq := false, waits := s.dev.waits ++ [⟨h.sq, h.cid, 2, []⟩] } }
  | .diag =>
    if s.anyEngine Engine.active then s.done h stNotReady
    else State.done { s with dev := { s.dev with base := .dock } } h stOk
  | .safe =>
    if s.mayLeaveSafe then (State.reachDock { s with dev := { s.dev with holdReq := false } }).done h stOk
    else s.done h stNotReady
  | _ => s.done h stNotReady

/-- MODE_SET SURVEY (R234, R335): the run begins on entry. In a reference-loss span its step 7 has nothing to run (R189; DESIGN
CHOICE, log entry 153). -/
def State.modeSurvey (s : State) (h : Hdr) : State :=
  if s.mode ≠ .dock then s.done h stNotReady
  else
    let s := s.calAbandon false
    let s := { s with
      dev := { s.dev with base := .survey, waits := s.dev.waits ++ [⟨h.sq, h.cid, 5, []⟩] }
      cal := { s.cal with surveyBusy := true } }
    (List.range 16).foldl (fun s k => s.updCalLane k fun l =>
      { l with
        svTodo := some (if s.refSpan then [] else [16, 17, 18] ++ List.range 16)
        svBegan := false
        svFail := false }) s

/-- MODE_SET STOP (R339): only as the sole command in flight for this device. It would leave SAFE, so R305 holds for it too
(DEDUCED, log entry 50). -/
def State.modeStop (s : State) (h : Hdr) : State :=
  if (s.mode ≠ .dock && s.mode ≠ .diag && s.mode ≠ .safe) || (s.mode = .safe && s.safeSource) ||
    decide (1 < s.devInflight) then s.done h stNotReady
  else
    let c := s.cal
    let c := if c.unsaved then { c with unsaved := false, flashSlots := c.slots, flashTemps := c.temps, savedAt := some s.now } else c
    State.done { s with cal := c, power := { s.power with stopReq := some (h.sq, h.cid) } } h stOk

/-- MODE_SET (R335 to R339). -/
def execModeSet (h : Hdr) (mode : Byte) (s : State) : Host.Outcome State Fault Refusal :=
  .next (queueCmd s h 0x39 [(128, mode.toNat)] (mode.toNat < 8) (fun r => bit r.perms 6) false fun s =>
    if mode = 1 || mode = 3 then s.done h stBadCommand
    else if s.mode = .survey && mode ≠ 7 then s.done h stNotReady
    else
      match mode.toNat with
      | 0 => s.modeStop h
      | 2 => s.modeDock h
      | 4 => if s.mode = .dock || s.mode = .run then s.modeHold h else s.done h stNotReady
      | 5 => s.modeSurvey h
      | 6 =>
        if s.mode ≠ .dock then s.done h stNotReady
        else
          let s := s.calAbandon false
          State.done { s with dev := { s.dev with base := .diag } } h stOk
      | _ =>
        match s.mode with
        | .dock | .run | .hold | .survey | .diag => s.enterSafe.done h stOk
        | _ => s.done h stNotReady)

/-- The device is in Stop with every group dropped (R341). -/
def State.powerOff (s : State) : State :=
  { s with
    dev := { s.dev with base := .stop }
    power := { s.power with
      pwrEn := 0
      falling := 0
      pg := 0
      waking := false
      booting := false
      detArmed := false
      stoppedAt := s.now
      retryAt := none
      held := false } }

/-- The device enters Stop (R339 to R341): the working state is lost and every group is dropped. -/
def State.powerDown (s : State) : State := s.deviceReset.powerOff

/-- The PWR_EN outputs (R339, R345, R352): groups that are dropped fall 100 us apart, the highest first. -/
def PowerSt.enables (p : PowerSt) (now : Nat) : BitVec 4 :=
  p.pwrEn ||| maskOf 4 ((bitsOf 4 p.falling).filter fun g =>
    decide (now < p.fallAt + 100 * usTicks * ((bitsOf 4 p.falling).filter fun j => decide (g < j)).length))

/-- STOP_ENTRY (R339). -/
def execStopEntry (s : State) : Host.Outcome State Fault Refusal :=
  .next (inRun s fun s =>
    match s.power.stopAt with
    | some t =>
      if s.now < t then s
      else
        let en := s.power.pwrEn
        let s := s.powerDown
        { s with power := { s.power with cause := setBit s.power.cause 7 true, falling := en, fallAt := s.now } }
    | none => s)

/-- PG_LOSS (R340). -/
def execPgLoss (n : Fin 4) (s : State) : Host.Outcome State Fault Refusal :=
  .next (inRun s fun s =>
    let s := s.powerDown
    let g : BitVec 2 := BitVec.ofNat 2 n.val
    { s with power := { s.power with cause := setFld (setBit s.power.cause 6 true) 18 g, faultDrive := true } })

/-- VAON_LOSS (R362): every group falls, the always-on domain drives nothing, and nothing is saved. -/
def execVaonLoss (s : State) : Host.Outcome State Fault Refusal :=
  .next (let s := s.wipe.powerOff
    { s with power := { s.power with vaon := false, faultDrive := false } })

/-- A group's enable is raised. -/
def State.raiseGroup (s : State) (n : Nat) : State :=
  { s with power := { s.power with pwrEn := setBit s.power.pwrEn n true, raisedAt := s.now, pgAt := none } }

/-- An attempt starts (R344, R345), the retries-th of its series after the first. -/
def State.startAttempt (s : State) (retries : Nat) : State :=
  let s := { s with power := { s.power with
    waking := true
    pwrEn := 0
    falling := 0
    pg := 0
    detArmed := false
    retryAt := none
    held := false
    attempts := retries + 1
    cause := setFld s.power.cause 20 (BitVec.ofNat 2 retries) } }
  s.raiseGroup 0

/-- The code of a wake source (R342, R352). -/
def wakeCode : WakeSrc → BitVec 3
  | .e0Squelch => 1
  | .pcieSquelch => 2
  | .tone => 3
  | .rail _ _ => 4

/-- AON_CAUSE with a wake source: WAKE_SRC is the latest source, WAKE_PATTERN is set by the tone, and SNS keeps the comparator of
the latest rail-sense wake (R352). -/
def wakeCause (c : Word32) (w : WakeSrc) : Word32 :=
  let c : Word32 := setFld c 8 (wakeCode w)
  match w with
  | .tone => setBit c 4 true
  | .rail n _ => setFld c 12 (BitVec.ofNat 3 n.val)
  | .e0Squelch | .pcieSquelch => c

/-- The wake tone goes out on the ports that AON_WAKE_EN.FWD selects (R343). -/
def State.forwardTone (s : State) : State :=
  s.sends (((List.range 4).filter fun p => bit s.power.wakeEn (20 + p)).map fun p => Out.tone (p + 1))

/-- Step 1 of the sequence (R344): the tone is forwarded and PWR_EN0 raised, in the first attempt of a series. -/
def State.startSequence (s : State) : State := s.forwardTone.startAttempt 0

/-- Wake: the cause is recorded and the sequence starts (R342 to R344). -/
def State.wake (s : State) (w : WakeSrc) : State :=
  State.startSequence { s with power := { s.power with cause := wakeCause (causeBit s.power.cause 3) w } }

/-- The source is enabled (R342, R352). -/
def State.wakeEnabled (s : State) (w : WakeSrc) : Bool :=
  match w with
  | .e0Squelch => bit s.power.wakeEn 0
  | .pcieSquelch => bit s.power.wakeEn 1
  | .tone => bit s.power.wakeEn 2
  | .rail n ev => bit s.power.wakeEn 3 && bit (s.sn n.val).cfg (4 + ev.val)

/-- The rail-sense latch of a wake event is set (R348). -/
def State.wakeLatch (s : State) (w : WakeSrc) : State :=
  match w with
  | .rail n ev => s.updSn n.val fun r => if bit r.cfg (4 + ev.val) then { r with evt := setBit r.evt ev.val true } else r
  | _ => s

/-- The source that a wake condition counts as: itself where it is enabled; the tone is above squelch as well, and takes precedence
where both are enabled (R342). -/
def State.wakeAs (s : State) (w : WakeSrc) : Option WakeSrc :=
  if s.wakeEnabled w then some w
  else if w = .tone && s.wakeEnabled .e0Squelch then some .e0Squelch
  else none

/-- The signal that woke the device as squelch on E0 turns out to be the tone (R342): a first attempt is in progress, the latest
wake source is E0 squelch, and the tone is enabled (DEDUCED, log entry 47). -/
def State.toneFollows (s : State) (w : WakeSrc) : Bool :=
  w = .tone && s.wakeEnabled .tone && s.power.waking && decide (s.power.attempts = 1) && bit s.power.cause 3 &&
    decide (fldN s.power.cause 8 3 = 1)

/-- A wake condition is met in Stop (R342, R345): in a failure series, only the tone starts a wake; a series of its own, at
once. Between attempts other sources are ignored (DEDUCED, log entry 47). -/
def State.wakeBy (s : State) (w : WakeSrc) : State :=
  let p := s.power
  let s := s.wakeLatch w
  if p.retryAt.isSome || p.held || (p.waking && decide (1 < p.attempts)) then
    if w = .tone && s.wakeEnabled .tone then s.wake .tone else s
  else if p.detArmed then
    match s.wakeAs w with
    | some x => s.wake x
    | none => s
  else if s.toneFollows w then { s with power := { s.power with cause := wakeCause s.power.cause .tone } }
  else s

/-- WAKE_DETECTED (R342 to R345). In Run a wake source has no effect as one. -/
def execWakeDetected (w : WakeSrc) (s : State) : Host.Outcome State Fault Refusal :=
  .next (if s.dev.base = .stop && s.power.vaon then s.wakeBy w else s)

/-- WAKE_DETECTOR_ARMED (R343): a condition still present starts a wake at that moment. -/
def execWakeDetectorArmed (present : Option WakeSrc) (s : State) : Host.Outcome State Fault Refusal :=
  .next (
    let p := s.power
    if s.dev.base = .stop && p.vaon && !p.waking && !p.detArmed && p.pg = 0 && decide (p.stoppedAt + msTicks ≤ s.now) then
      let s := { s with power := { p with detArmed := true } }
      match present with
      | some w => s.wakeBy w
      | none => s
    else s)

/-- A wake attempt is in progress. -/
def inWake (s : State) (f : State → State) : State := if s.dev.base = .stop && s.power.waking then f s else s

/-- The highest group raised. -/
def PowerSt.group (p : PowerSt) : Nat := popCount p.pwrEn - 1

/-- PG_ASSERTED (R344). -/
def execPgAsserted (n : Fin 4) (s : State) : Host.Outcome State Fault Refusal :=
  .next (inWake s fun s =>
    if s.power.group = n.val && !bit s.power.pg n.val then
      { s with power := { s.power with pg := setBit s.power.pg n.val true, pgAt := some s.now } }
    else s)

/-- POWER_GROUP_ENABLE (R344): 100 us after the PG of the group before. -/
def execPowerGroupEnable (s : State) : Host.Outcome State Fault Refusal :=
  .next (inWake s fun s =>
    match s.power.pgAt with
    | some t => if s.power.group < 3 && decide (t + 100 * usTicks ≤ s.now) then s.raiseGroup (s.power.group + 1) else s
    | none => s)

/-- PLL_LOCKED (R344): BOOT begins. -/
def execPllLocked (s : State) : Host.Outcome State Fault Refusal :=
  .next (inWake s fun s =>
    if bit s.power.pg 3 then
      State.beginBoot { s with dev := { s.dev with base := .boot }, power := { s.power with waking := false } }
    else s)

/-- An attempt fails (R345). -/
def State.wakeFail (s : State) (kind : Nat) (group : Option Nat) : State :=
  let p := s.power
  let c := setFld (setBit p.cause 5 true) 16 (BitVec.ofNat 2 kind)
  let c : Word32 := match group with
    | some g => setFld c 18 (BitVec.ofNat 2 g)
    | none => c
  let last := decide (3 ≤ p.attempts)
  { s with power := { p with
    cause := c
    pwrEn := 0
    falling := p.pwrEn
    fallAt := s.now
    pg := 0
    waking := false
    pgAt := none
    stoppedAt := s.now
    faultDrive := true
    wakeFailed := true
    held := last
    retryAt := if last then none else some (s.now + 100 * msTicks) } }

/-- PG_TIMEOUT (R345). -/
def execPgTimeout (s : State) : Host.Outcome State Fault Refusal :=
  .next (inWake s fun s =>
    if s.power.pgAt.isNone && decide (s.power.raisedAt + 10 * msTicks ≤ s.now) then s.wakeFail 1 (some s.power.group) else s)

/-- PLL_LOCK_TIMEOUT (R345). -/
def execPllLockTimeout (s : State) : Host.Outcome State Fault Refusal :=
  .next (inWake s fun s =>
    match s.power.pgAt with
    | some t => if bit s.power.pg 3 && decide (t + 2 * msTicks ≤ s.now) then s.wakeFail 2 none else s
    | none => s)

/-- WAKE_RETRY (R345). -/
def execWakeRetry (s : State) : Host.Outcome State Fault Refusal :=
  .next (
    match s.power.retryAt with
    | some t => if s.dev.base = .stop && s.power.vaon && decide (t ≤ s.now) then s.startAttempt s.power.attempts else s
    | none => s)

/-- ROOT_PLL_LOCK_LOSS (R298): while REFCLK is present. -/
def execRootPllLockLoss (s : State) : Host.Outcome State Fault Refusal :=
  .next (inRun s fun s => if s.ref.present then s.umpEvent 70 0 else s)

/-- The uncorrectable errors that PCIe Base 5.0 classes as fatal: data link protocol, surprise down, flow control protocol, receiver
overflow, malformed TLP and internal (PRESUMED, log entry 135). -/
def pcieFatal : Word32 := 0x00462030

/-- AER reports uncorrectable errors to the host, as non-fatal unless they are fatal (R266). -/
def aerReports (aer : Word32) : List Out :=
  (if aer &&& ~~~pcieFatal ≠ 0 then [.aerMessage false] else []) ++ if aer &&& pcieFatal ≠ 0 then [.aerMessage true] else []

/-- PCIE_UNCORRECTABLE_ERROR (R266, R298): AER logs the error and reports it. A member other than the root has no PCIe function. -/
def execPcieUncorrectableError (aer : Word32) (s : State) : Host.Outcome State Fault Refusal :=
  .next (inRun s fun s =>
    if s.isTop then
      let pci := { s.host.pci with aer := s.host.pci.aer ||| aer }
      (State.sends { s with host := { s.host with pci := pci } } (aerReports aer)).umpEvent 47 aer
    else s)

/-- DIE_TO_DIE_INTERFACE_ERROR (R298). -/
def execDieToDieInterfaceError (die : Fin 2) (lanes : BitVec 16) (s : State) : Host.Outcome State Fault Refusal :=
  .next (inRun s fun s => s.umpEvent (76 + die.val) (lanes.setWidth 32))

end Sys2Proof.Machine
end

