-- ==== Sys2Proof/Machine/RailSense.lean ====
section
/-! DEFINITION. Rail-sense comparators (R347 to R351) and power-on reset (R346). -/

namespace Sys2Proof.Machine

/-- A threshold code in uV (R347). -/
def snsUv (code : Nat) : Nat := code * 750

/-- Half the hysteresis of 20 mV in uV, as R33 applies it (R347). -/
def snsHalf : Nat := 10000

/-- Threshold codes (R351). -/
def Sns.loCode (r : Sns) : Nat := fldN r.thr 0 12
def Sns.hiCode (r : Sns) : Nat := fldN r.thr 16 12

/-- One output: it trips at the threshold plus half the hysteresis rising and minus half falling (R33, R347), and an
UNSETTLED output settles when the input leaves the band (R349). -/
def SnsOut.judge (o : SnsOut) (code uv : Nat) : SnsOut :=
  if snsUv code + snsHalf < uv then .high
  else if uv + snsHalf < snsUv code then .low
  else o

/-- A flip of a settled output is an event: bit `lo` for rising, the next for falling (R347, R349). -/
def flipEvent (a b : SnsOut) (lo : Nat) : BitVec 4 :=
  match a, b with
  | .low, .high => placeB 4 lo true
  | .high, .low => placeB 4 (lo + 1) true
  | _, _ => 0

/-- The comparator judges its input; the events it makes. -/
def Sns.judge (r : Sns) : Sns × BitVec 4 :=
  let hi := r.hi.judge r.hiCode r.uv
  let lo := r.lo.judge r.loCode r.uv
  ({ r with hi := hi, lo := lo }, flipEvent r.hi hi 0 ||| flipEvent r.lo lo 2)

/-- Events of comparator n take effect (R342, R348): the selected ones latch; in Run one selected for it interrupts, in Stop
one selected for it wakes. -/
def State.snsEvents (s : State) (n : Nat) (ev : BitVec 4) : State :=
  let r := s.sn n
  let sel : BitVec 4 := fld r.cfg 0 4 ||| fld r.cfg 4 4
  let s := s.setSn n { r with evt := r.evt ||| (ev &&& sel) }
  if s.dev.base = .stop then
    match (bitsOf 4 (ev &&& fld r.cfg 4 4)).head? with
    | some e => if s.power.vaon then s.wakeBy (.rail (Fin.ofNat 8 n) (Fin.ofNat 4 e)) else s
    | none => s
  else if ev &&& fld r.cfg 0 4 ≠ 0 && bit s.rs.irq 8 then s.sendVector (fldN s.rs.irq 0 8)
  else s

/-- Comparator n judges again. -/
def State.snsJudge (s : State) (n : Nat) : State :=
  let (r, ev) := (s.sn n).judge
  (s.setSn n r).snsEvents n ev

/-- RAIL_SENSE_EVENT (R347, R348): the input of comparator n is now at uv. -/
def execRailSenseEvent (n : Fin 8) (uv : Nat) (s : State) : Host.Outcome State Fault Refusal :=
  .next (if s.power.vaon then (s.updSn n.val fun r => { r with uv := uv }).snsJudge n.val else s)

/-- UNSETTLED_OUTPUT_SETTLES (R349): the same movement of the input, which makes no event on an UNSETTLED output. -/
def execUnsettledOutputSettles (n : Fin 8) (uv : Nat) (s : State) : Host.Outcome State Fault Refusal :=
  .next (if s.power.vaon then (s.updSn n.val fun r => { r with uv := uv }).snsJudge n.val else s)

/-- RS_SNS_THR_WRITE (R347, R348). -/
def execRsSnsThrWrite (n : Fin 8) (v : Word32) (s : State) : Host.Outcome State Fault Refusal :=
  .next (whenReady s fun s =>
    let lo := fldN v 0 12
    let hi := fldN v 16 12
    if decide (4000 < lo) || decide (4000 < hi) || decide (hi < lo) then { s with rs := { s.rs with refused := true } }
    else (s.updSn n.val fun r => { r with thr := v &&& 0x0FFF0FFF }).snsJudge n.val)

/-- RS_CHECK (R349, R351). -/
def execRsCheck (v : Word32) (s : State) : Host.Outcome State Fault Refusal :=
  .next (whenReady s fun s => { s with rs := { s.rs with check := s.rs.check ||| fld v 0 8 } })

/-- A forced check of one output (R349). -/
def SnsOut.force (o : SnsOut) (code uv : Nat) : SnsOut :=
  match o with
  | .unsettled => if snsUv code ≤ uv then .high else .low
  | _ => o

/-- RS_CHECK_DONE (R349): the operand is what the monitor ADC measures on each input. -/
def execRsCheckDone (uv : List Nat) (s : State) : Host.Outcome State Fault Refusal :=
  .next (inRun s fun s =>
    let s := (bitsOf 8 s.rs.check).foldl (fun s n => s.updSn n fun r =>
      let v := uv.getD n r.uv
      { r with hi := r.hi.force r.hiCode v, lo := r.lo.force r.loCode v }) s
    { s with rs := { s.rs with check := 0 } })

/-- One threshold DAC is read back (R350): `up` is the upper one. -/
def State.snsReadback (s : State) (n : Nat) (up : Bool) (v : Nat) : State :=
  let r := s.sn n
  let t := snsUv (if up then r.hiCode else r.loCode)
  if 8000 < max v t - min v t then
    (s.setSn n { r with rbErr := true }).umpEvent 75 (placeN 32 0 n ||| placeB 32 3 up)
  else s

/-- RS_READBACK (R350): the readings of the sixteen threshold DACs, the lower and the upper of each comparator in turn. -/
def execRsReadback (uv : List Nat) (s : State) : Host.Outcome State Fault Refusal :=
  .next (inRun s fun s =>
    (List.range 8).foldl (fun s n =>
      let s := match uv[2 * n]? with
        | some v => s.snsReadback n false v
        | none => s
      match uv[2 * n + 1]? with
      | some v => s.snsReadback n true v
      | none => s) s)

/-- A comparator at power-on reset (R349, R351): an input within the band of a threshold leaves it UNSETTLED. -/
def Sns.powerOn (uv : Nat) : Sns :=
  (({ Sns.reset with uv := uv, hi := .unsettled, lo := .unsettled } : Sns).judge).1

/-- POWER_ON_RESET (R344, R346, R352): everything resets, the always-on domain too, and the wake sequence runs. The operand is
the input of each comparator. -/
def execPowerOnReset (snsUvs : List Nat) (s : State) : Host.Outcome State Fault Refusal :=
  .next (
    let s := s.powerDown
    let s := { s with
      power := { PowerSt.reset with pwrEn := 0, pg := 0, booting := false }
      rs := RsSt.reset
      sns := (List.range 8).map fun n => (n, Sns.powerOn (snsUvs.getD n 0)) }
    s.startSequence)

end Sys2Proof.Machine
end

