-- ==== Sys2Proof/Machine/TimUnits.lean ====
section
/-! DEFINITION. The commands and events of the TIM units (R172 to R185), and the reference (R186 to R190). -/

namespace Sys2Proof.Machine

/-- The claim holder of TIM unit u (R291). -/
def State.timOwner (s : State) (u : Nat) : Nat := s.claim (512 + u)

/-- A value of TIM_CFG or TIM_SEL without a reserved code (R172, R173, R191). -/
def timCfgOk (v : Word32) : Bool := fldN v 0 5 ≤ 27 && fldN v 8 5 ≤ 27 && fldN v 16 3 ≤ 5
def timSelOk (v : Word32) : Bool := fldN v 8 7 ≤ 111

/-- Bits of TIM_CFG and TIM_SEL that hold a value (R191). -/
def timCfgMask : Word32 := 0x001F7F7F
def timSelMask : Word32 := 0x00007F7F

/-- An IDLE unit is armed (R175, R183): no result, no snapshot, COUNT measurements. -/
def State.timArm (s : State) (u : Nat) : State :=
  s.updTim u fun t => { t with
    st := .waitGate
    armAt := s.rtick
    left := if t.count = 0 then none else some t.count.toNat
    result := none
    snap := none }

/-- TIM_SETUP (R174, R277). Reserved bits of the register images are ignored (R9). -/
def execTimSetup (h : Hdr) (unit arm : Byte) (cfg sel count : Word32) (timeout : Word64) (ofs : Word32) (s : State) :
    Host.Outcome State Fault Refusal :=
  .next (queueCmd s h 0x29 [(128, unit.toNat), (136, arm.toNat), (160, cfg.toNat), (192, sel.toNat), (224, count.toNat),
      (256, timeout.toNat), (320, ofs.toNat)] (unit.toNat < 32 && arm.toNat < 2) anyRec false fun s =>
    let u := unit.toNat
    let o := s.timOwner u
    if o = 31 then s.done h stNotOwner
    else if o ≠ ctxOfQueue h.sq then s.done h stClaimed
    else if (s.tim u).st ≠ .idle then s.done h stNotReady
    else if !timCfgOk cfg || !timSelOk sel then s.done h stBadCommand
    else
      let s := s.updTim u fun t => { t with
        cfg := cfg &&& timCfgMask
        sel := sel &&& timSelMask
        count := fld count 0 16
        timeout := timeout &&& 0xFFFFFFFFFF
        ofs := ofs }
      (if arm = 1 then s.timArm u else s).done h stOk)

/-- A control write is accepted while a context holds the unit's claim (R174). -/
def State.timCtrl (s : State) (u : Nat) (f : State → State) : State :=
  if s.timOwner u < 16 then f s else s.updTim u fun t => { t with ignored := true }

/-- TIM_ARM (R174, R175): it moves an IDLE unit alone. -/
def execTimArm (u : TimId) (s : State) : Host.Outcome State Fault Refusal :=
  .next (whenReady s fun s => s.timCtrl u.val fun s => if (s.tim u.val).st = .idle then s.timArm u.val else s)

/-- TIM_DISARM (R174, R175). -/
def execTimDisarm (u : TimId) (s : State) : Host.Outcome State Fault Refusal :=
  .next (whenReady s fun s => s.timCtrl u.val fun s => if (s.tim u.val).st = .idle then s else s.timDisarm u.val)

/-- Write a configuration register of a unit (R191): reserved codes change nothing and set REFUSED. -/
def Tim.write (t : Tim) (q : TimReg) (v : Word32) : Tim :=
  match q with
  | .cfg => if timCfgOk v then { t with cfg := v &&& timCfgMask } else { t with refused := true }
  | .sel => if timSelOk v then { t with sel := v &&& timSelMask } else { t with refused := true }
  | .count => { t with count := fld v 0 16 }
  | .timeout hi => { t with timeout := setHalf t.timeout hi (if hi then v &&& 0xFF else v) }
  | .ofs => { t with ofs := v }

/-- TIM_CONFIG_WRITE (R174). -/
def execTimConfigWrite (u : TimId) (q : TimReg) (v : Word32) (s : State) : Host.Outcome State Fault Refusal :=
  .next (whenReady s fun s =>
    if (s.tim u.val).st ≠ .idle || s.timOwner u.val = 16 then s.updTim u.val fun t => { t with ignored := true }
    else s.updTim u.val fun t => t.write q v)

/-- TIM_GATE_CHANGE (R173): the balls GATE0 to GATE3 as sampled, and the unit's gate. -/
def execTimGateChange (u : TimId) (balls : BitVec 4) (s : State) : Host.Outcome State Fault Refusal :=
  .next (inRun s fun s =>
    let lv : BitVec 5 := setFld s.pins.level 0 balls
    let s := if lv = s.pins.level then s else { s with pins := { level := lv, hist := (s.rtick, lv) :: s.pins.hist } }
    s.timSample u.val)

/-- The time of an edge in 2^-8 fu (R178): bin table and, for a channel, its path delay. -/
def State.edgeTime (s : State) (u src : Nat) (bins : List (BitVec 16)) (o : EdgeObs) : Nat :=
  let t := o.tick * 131072 + o.phase.val * 16384 + (bins.getD o.tap.val 0).toNat
  if src < 16 then t - (s.chan (16 * (u / 2) + src)).pathDelay else t

/-- The input sees the edge (R172): its source is external, and the edge is of the direction that EDGE selects and, for a
comparator, of the threshold that THR selects. `lo` is where the input's fields stand in TIM_CFG. -/
def Tim.sees (t : Tim) (lo : Nat) (e : TimEdge) : Bool :=
  let src := fldN t.cfg lo 5
  decide (src ≤ 25) && (24 ≤ src || bit t.cfg (lo + 5) = e.low) && bit t.cfg (lo + 6) = e.falling

/-- TIM_START_EDGE (R172, R173, R175). -/
def execTimStartEdge (u : TimId) (edge : TimEdge) (s : State) : Host.Outcome State Fault Refusal :=
  .next (inRun s fun s =>
    let t := s.tim u.val
    if t.sees 0 edge then s.timStart u.val (s.edgeTime u.val t.startSrc t.binS edge.obs) else s)

/-- TIM_STOP_EDGE (R172, R175 to R178, R193). -/
def execTimStopEdge (u : TimId) (edge : TimEdge) (s : State) : Host.Outcome State Fault Refusal :=
  .next (inRun s fun s =>
    let t := s.tim u.val
    if t.sees 8 edge then s.timStop u.val (s.edgeTime u.val t.stopSrc t.binP edge.obs) else s)

/-- TIM_TIMEOUT (R175, R176): a stop edge in the tick in which the timeout expires wins. -/
def execTimTimeout (u : TimId) (s : State) : Host.Outcome State Fault Refusal :=
  .next (inRun s fun s =>
    let t := s.tim u.val
    if t.st = .started && t.stopAt.isNone && decide (t.expiry < s.rtick) then s.timResult u.val timTimeout 0 s.rtFine else s)

/-- TIM_DEAD_TIME_END (R175). -/
def execTimDeadTimeEnd (u : TimId) (s : State) : Host.Outcome State Fault Refusal :=
  .next (inRun s fun s =>
    let t := s.tim u.val
    if t.st = .dead && decide (t.deadEnd ≤ s.rtick) then
      (s.setTim u.val { t with st := .waitGate, armAt := t.deadEnd }).timSample u.val
    else s)

/-- TIM_RES_STAT as a result gives it (R183, R191). -/
def TimResult.stat (r : TimResult) : Word32 :=
  place 32 0 r.seq ||| place 32 16 r.code ||| placeB 32 19 r.refAbsent ||| placeB 32 20 r.derated |||
  placeB 32 30 r.consumed ||| placeB 32 31 true

/-- A read of TIM_RES_STAT takes the snapshot (R182, R183). -/
def State.timSnapshot (s : State) (u : Nat) : State :=
  s.updTim u fun t => { t with snap := t.result, result := t.result.map fun r => { r with consumed := true } }

/-- What TIM_RES_STAT reads. -/
def State.timStat (s : State) (u : Nat) : Word32 :=
  match (s.tim u).result with
  | some r => r.stat
  | none => 0

/-- TIM_RES_STAT_READ (R182, R183). -/
def execTimResStatRead (u : TimId) (s : State) : Host.Outcome State Fault Refusal :=
  .next (readWhenReady s 1 fun s =>
    (s.send (.readData [s.timStat u.val])).timSnapshot u.val)

/-- Every RUNNING heat of the device is asked to hold, and every admitted one whose cycle 0 lies ahead (R187, R189). -/
def State.holdRunning (s : State) (cause : BitVec 3) : State :=
  (s.enginesIn Engine.mayHold).foldl (fun s e => s.requestHold e cause) s

/-- A member whose device loses REFCLK while the lead still waits for answers, to a HEAT_START or a HEAT_RESUME, takes back its own: the
command completes REF_ABSENT (R189). -/
def State.answerLoss (s : State) : State :=
  (s.enginesIn fun r => r.coupled && r.heat.isSome && (r.heat.any Heat.awaits || r.st = .held)).foldl (fun s e =>
    let r := s.eng e
    if s.isLead r then s
    else s.sendTo (s.leadId r) (.coupledAnswer r.coupling s.ez.id stRefAbsent (s.refuse 1 stRefAbsent 0 0).2)) s

/-- A result that ended at or after the last edge before a loss overlaps the span (R185, R188). -/
def Tim.noteLoss (t : Tim) (edge : Nat) : Tim :=
  let f (r : TimResult) : TimResult := { r with refAbsent := r.refAbsent || decide (edge ≤ r.endTick) }
  { t with result := t.result.map f, snap := t.snap.map f }

/-- The Log packet of a TIM result or a record that ended at or after the last edge says so too, wherever in the Log it stands (R185,
R206, R209). -/
def Pkt.noteLoss (p : Pkt) (edge : Nat) : Pkt :=
  match refAbsentBit p.kind with
  | some b => if edge ≤ p.ends then { p with words := p.words.modify 0 fun w => setBit w b true } else p
  | none => p

/-- The same for a read word of the draining bank. -/
def ReadWord.noteLoss (w : ReadWord) (edge : Nat) : ReadWord :=
  match w.loss with
  | some (t, b) => if edge ≤ t then { w with word := setBit w.word b true } else w
  | none => w

/-- The header of a record that ended at or after the last edge carries REF_ABSENT, bit 30 of its first word (R206, R207). -/
def State.acqNoteLoss (s : State) (k edge : Nat) : State :=
  match (s.acq k).lastHdr with
  | some (hd, base, last) =>
    if decide (edge ≤ last) && s.liveRegion hd then
      let i := handleIdx hd
      s.regionWrite i (base + 3) ((s.regionBytes i (base + 3) 1).map fun b => setBit b 6 true)
    else s
  | none => s

/-- What ended after the last edge lies in the span that the loss opens (R188): TIM results, acquisition records and their packets. -/
def State.noteLoss (s : State) : State :=
  let edge := s.ref.lossEdge
  let s := { s with
    tims := s.tims.map fun (x : Nat × Tim) => (x.1, x.2.noteLoss edge)
    log := { s.log with
      finished := s.log.finished.map fun (p : Pkt) => p.noteLoss edge
      intake := s.log.intake.map fun (x : LogPkt) => { x with pkt := x.pkt.noteLoss edge }
      filling := s.log.filling.map fun (x : LogPkt) => { x with pkt := x.pkt.noteLoss edge }
      draining := s.log.draining.map fun (x : ReadWord) => x.noteLoss edge } }
  (List.range 16).foldl (fun s k => s.acqNoteLoss k edge) s

/-- REFCLK_LOST (R186 to R190, R219, R264): a loss within a span is no new declaration, and ends a run or a relock in progress. The
last edge lies 64 to 72 ticks before the declaration: a free choice. -/
def execRefclkLost (s : State) : Host.Outcome State Fault Refusal :=
  .next (inRun s fun s =>
    if s.refSpan then { s with ref := { s.ref with returning := false, relocking := false } }
    else
      let (v, s) := s.takeFree
      let s := { s with ref := { s.ref with
        present := false
        relocked := false
        holdover := true
        returning := false
        relocking := false
        latch := true
        lossCount := satInc s.ref.lossCount
        lossTime := s.rtick
        lossEdge := s.rtick - 64 - v.toNat % 9 } }
      let s := s.noteLoss.umpEvent 48 (place 32 0 s.ref.lossCount)
      let s := ((s.holdRunning 3).answerLoss).calAbandon false
      s.sendOrdered 6 s.rtick 3 id)

/-- REFCLK_RETURNING (R190): the first edge of a stable run starts the millisecond again. -/
def execRefclkReturning (s : State) : Host.Outcome State Fault Refusal :=
  .next (inRun s fun s =>
    if s.refSpan then { s with ref := { s.ref with returning := true, relocking := false, since := s.now } } else s)

/-- REFCLK_RETURN_RECOGNISED (R190). -/
def execRefclkReturnRecognised (s : State) : Host.Outcome State Fault Refusal :=
  .next (inRun s fun s =>
    if s.ref.returning && decide (s.ref.since + msTicks ≤ s.now) then
      { s with ref := { s.ref with returning := false, relocking := true, since := s.now } }
    else s)

/-- PLL_RELOCKED (R190). -/
def execPllRelocked (s : State) : Host.Outcome State Fault Refusal :=
  .next (inRun s fun s =>
    if s.ref.relocking then
      { s with ref := { s.ref with
        relocking := false
        relocked := true
        present := true
        holdover := false
        returnTime := s.rtick
        spans := (s.ref.lossEdge, s.rtick) :: s.ref.spans } }
    else s)

end Sys2Proof.Machine
end

