-- ==== Sys2Proof/Machine/BarRead.lean ====
section
/-! DEFINITION. What a read of a BAR0 register returns, window by window (R7, R25), written as the register maps of the spec
are. -/

namespace Sys2Proof.Machine

/-- A 64-bit register at offset a: bits [31:0] at the lower offset (R7). -/
def wide (a : Nat) (v : Word64) : List (Nat × Word32) := [(a, getHalf v false), (a + 4, getHalf v true)]

/-- A register of 32·n bits at offset a. -/
def wideN (a n w : Nat) (v : BitVec w) : List (Nat × Word32) := (List.range n).map fun i => (a + 4 * i, fld v (32 * i) 32)

/-- The value at an offset of a register map; an offset that holds no register reads zero (R7). -/
def regAt (l : List (Nat × Word32)) (off : Nat) : Word32 :=
  match l.find? fun x => x.1 = off with
  | some x => x.2
  | none => 0

/-- Index of an array of n registers with a stride from a base, and the offset inside it. -/
def arrAt (base stride n off : Nat) : Option (Nat × Nat) :=
  if base ≤ off && off < base + stride * n then some ((off - base) / stride, (off - base) % stride) else none

/-- A lock register (R296). -/
def State.lockReg (s : State) (n : Nat) : Word32 :=
  let l := s.lock n
  placeN 32 0 (if s.lockFree n then 31 else l.owner) ||| placeB 32 5 l.suspect ||| place 32 8 l.epoch ||| place 32 16 l.rank

/-- GBL_APn_SEL (R296). -/
def State.apSel (s : State) (n : Nat) : Word32 := SMap.get (fun _ => 0) s.host.apSel n

/-- The GBL_ window (R267, R296). In recovery only GBL_ID and GBL_MODE work (R322). -/
def State.readGbl (s : State) (off : Nat) : Word32 :=
  if off = 0 then s.gblId
  else if off = 4 then placeN 32 0 s.modeShown.code
  else if s.bh.recovery then 0
  else
    match arrAt 0x20 4 8 off, arrAt 0x1000 4 64 off, arrAt 0x8000 4 1024 off, arrAt 0x9000 4 8 off with
    | some (n, _), _, _, _ => s.apSel n
    | _, some (n, _), _, _ => s.lockReg n
    | _, _, some (i, _), _ => s.msixDword i
    | _, _, _, some (i, _) => fld s.host.msixPend (32 * i) 32
    | _, _, _, _ =>
      regAt ([(0x8, placeB 32 0 s.dev.ready ||| placeB 32 1 s.ez.root),
        (0x10, placeN 32 0 s.devInflight ||| placeN 32 16 s.host.peak)] ++
        wide 0x18 (BitVec.ofNat 64 s.host.sharedFree)) off

/-- The registers of a queue pair (R297). -/
def QPair.regs (r : QPair) : List (Nat × Word32) :=
  wide 0x00 r.sqBase ++ wide 0x20 r.cqBase ++
  [(0x08, place 32 0 r.sqLog ||| placeB 32 8 r.sqEn), (0x0C, place 32 0 r.sqTail), (0x10, place 32 0 r.sqHead),
    (0x14, placeB 32 0 r.stopped ||| placeB 32 1 r.err ||| place 32 16 r.cancelled),
    (0x18, placeB 32 0 r.cancelTo.isSome),
    (0x28, place 32 0 r.cqLog ||| placeB 32 8 r.cqEn ||| placeB 32 9 r.irqEn ||| place 32 16 r.vector),
    (0x2C, place 32 0 r.cqHead), (0x30, place 32 0 r.cqTail ||| placeB 32 16 r.cqPhase), (0x34, r.csn)]

/-- The HQ_ window (R297). -/
def State.readHq (s : State) (off : Nat) : Word32 :=
  let c := off / 0x1000
  let o := off % 0x1000
  match arrAt 0x100 0x40 16 o with
  | some (i, a) => regAt (s.qp (16 * c + i)).regs a
  | none =>
    let r := s.ctx c
    let n := (s.host.inflight.filter fun d => ctxOfQueue d.sq = c).length
    regAt [(0, place 32 0 r.epoch ||| placeB 32 8 (bit (s.entryRec c).perms 0) ||| placeN 32 16 n),
      (4, placeB 32 0 r.resetting)] o

/-- COX_STATE.STATE (R107). -/
def EngState.code : EngState → Nat
  | .idle => 0
  | .loaded => 1
  | .running => 2
  | .held => 3
  | .halted => 4
  | .faulted => 5

/-- COX_STATE (R107). -/
def State.coxState (s : State) (r : Engine) : Word32 :=
  placeN 32 0 r.st.code ||| placeB 32 3 r.tableValid ||| placeB 32 4 (r.st = .held && r.resumable) |||
  place 32 5 r.holdCause ||| placeN 32 8 r.regs.stack.length ||| placeB 32 13 r.coupled ||| placeB 32 14 (s.isLead r) |||
  placeB 32 15 r.regs.matched ||| place 32 16 r.regs.symBank ||| place 32 18 r.captMode ||| placeB 32 20 r.fcsat |||
  place 32 24 r.epoch

/-- The APG readbacks of R137; those of a RUNNING engine are of a recent tick, as a free choice says (`State.apgRecent`). -/
def Apg.regs (a : Apg) : List (Nat × Word32) :=
  [(0xA4, place 32 0 a.upc ||| place 32 16 a.flags), (0xB0, place 32 0 a.x), (0xB4, place 32 0 a.y), (0xB8, place 32 0 a.z),
    (0xBC, a.d0), (0xC0, a.d1)] ++ (List.range 8).map fun n => (0xC4 + 4 * n, place 32 0 (a.ixr n))

/-- The bits of an APG readback that hold a value (R137); 0 for any other offset. -/
def apgRegMask (o : Nat) : Word32 :=
  if o = 0xA4 then 0x00FF03FF
  else if o = 0xB8 then 0xFF
  else if o = 0xBC ∨ o = 0xC0 then BitVec.allOnes 32
  else if o = 0xB0 ∨ o = 0xB4 ∨ (0xC4 ≤ o ∧ o ≤ 0xE0 ∧ o % 4 = 0) then 0xFFFFFF
  else 0

/-- COX_CTRn and COX_PC.LOOP_ACTIVE come from the engine's counters (R107). -/
def Engine.loopActive (r : Engine) : Byte := maskOf 8 ((List.range 8).filter fun c => (r.regs.ctr c).active)

/-- The registers of an engine (R107, R137), the APG readbacks apart. -/
def State.coxRegs (s : State) (n : Nat) : List (Nat × Word32) :=
  let r := s.eng n
  [(0x000, placeN 32 0 n), (0x004, s.coxState r), (0x00C, place 32 0 r.idleTset ||| place 32 16 r.barGroups),
    (0x010, place 32 0 r.pc ||| place 32 16 r.loopActive),
    (0x014, place 32 0 r.faultCode ||| place 32 16 r.faultAddr), (0x018, r.matchIter)] ++
  wide 0x020 r.cycles ++ wide 0x028 (rtWord r.launch) ++
  ((List.range 8).map fun c => (0x040 + 4 * c, (r.regs.ctr c).value)) ++ [(0x060, r.regs.eflags)] ++
  wide 0x068 s.flags.dev ++ wide 0x070 s.flags.dev ++
  [(0x078, place 32 0 s.flags.reg), (0x07C, place 32 0 s.flags.reg), (0x080, r.tblSel)] ++ wideN 0x090 4 128 r.tblSnap ++
  [(0x0A0, r.apgCfg),
    (0x0A8, placeB 32 0 r.pdIgnored ||| placeB 32 1 r.pdRefused ||| place 32 16 r.tsetMismatch)] ++ wide 0x0E8 r.topo

/-- The COX_ window (R107, R137). -/
def State.readCox (s : State) (off : Nat) : Word32 :=
  let n := off / 0x1000
  let o := off % 0x1000
  let r := s.eng n
  match arrAt 0x100 4 48 o, arrAt 0x200 4 32 o, arrAt 0x300 4 16 o, arrAt 0x400 4 256 o with
  | some (i, _), _, _, _ => r.scrReg i
  | _, some (w, _), _, _ => SMap.get (fun _ => 0) r.syms w
  | _, _, some (b, _), _ => r.bindAt b
  | _, _, _, some (c, _) => r.pin c
  | _, _, _, _ => if apgRegMask o ≠ 0 then regAt r.regs.apg.regs o else regAt (s.coxRegs n) o

/-- The comparator state at the last edge of CK_S (R45). -/
def State.pinState (s : State) (c : Nat) : Cmp := (s.chan c).cmpAt (s.ckS * 16 * 512)

/-- LN_CH_STATUS (R45, R52). -/
def State.chStatus (s : State) (c : Nat) : Word32 :=
  let x := s.chan c
  placeN 32 0 (s.pinState c).code ||| placeB 32 2 x.tripped ||| placeB 32 3 x.safeOff ||| placeB 32 4 (s.inHeat c)

/-- LN_PMU_STATUS (R52). -/
def State.pmuStatus (s : State) (c : Nat) : Word32 :=
  let x := s.chan c
  placeB 32 0 x.compliance ||| placeB 32 1 x.curLimit ||| placeB 32 2 (x.active.pathCode = 2)

/-- A register with a staged and an active half (R52); v numbers it as LEVEL_WRITE does. -/
def Chan.halves (c : Chan) (v : Nat) : Word32 := place 32 0 (c.staged.val v) ||| place 32 16 (c.active.val v)

/-- The channel registers at 0x1000 + 0x100·j with their value numbers (R51). -/
def chanRegs : List (Nat × Nat) :=
  [(0x00, 0), (0x04, 1), (0x10, 2), (0x14, 3), (0x18, 4), (0x1C, 5), (0x20, 6), (0x24, 7), (0x28, 8)]

/-- The PMU registers at 0x2000 + 0x100·j with their value numbers (R51). -/
def pmuRegs : List (Nat × Nat) := [(0x00, 9), (0x04, 10), (0x08, 11), (0x0C, 12)]

/-- Applied levels of the lane's channels and spare (R79). -/
def State.actApplied (s : State) (k : Nat) : Word64 :=
  (List.range 17).foldl (fun m j => m ||| place 64 (3 * j) (s.act (17 * k + j)).applied) 0

/-- The lane-common, timing and spare registers of lane k (R51, R79, R137, R238, R368). -/
def State.laneRegs (s : State) (k : Nat) : List (Nat × Word32) :=
  let l := s.lane k
  let p := s.calLane k
  let t := l.tsrSnap
  [(0x0000, placeN 32 0 k ||| placeN 32 4 (k / 8)),
    (0x0014, placeB 32 0 l.lvlBusy ||| placeB 32 1 l.lvlRefused ||| place 32 4 l.lvlReason ||| place 32 8 l.lvlChannel |||
      place 32 16 l.lvlSeq),
    (0x0020, place 32 0 l.adcMux ||| place 32 8 l.adcAvg ||| placeB 32 31 l.adcBusy),
    (0x0028, l.adcValue),
    (0x002C, place 32 0 l.adcRaw ||| place 32 20 l.adcSeq ||| place 32 24 l.adcStat ||| placeB 32 31 l.adcValid),
    (0x0030, place 32 0 l.evtOc ||| place 32 16 l.evtClamp),
    (0x0040, placeN 32 0 l.vecLoad),
    (0x0048, placeB 32 0 l.derated ||| placeB 32 1 l.derTemp ||| placeB 32 2 l.derVolt ||| placeB 32 3 (l.derSeen || l.derated) |||
      place 32 16 l.vddh),
    (0x4000, place 32 0 l.tsrCh ||| place 32 8 l.tsrTset),
    (0x4004, place 32 0 t.fmt ||| placeB 32 4 t.stb ||| place 32 8 t.mux ||| place 32 16 t.wseq)] ++
  wide 0x4008 (place 64 0 t.period) ++ wide 0x4010 (place 64 0 t.dOn) ++ wide 0x4018 (place 64 0 t.dData) ++
  wide 0x4020 (place 64 0 t.dRet) ++ wide 0x4028 (place 64 0 t.dOff) ++ wide 0x4030 (place 64 0 t.stbOpen) ++
  wide 0x4038 (place 64 0 t.stbClose) ++
  [(0x4080, placeB 32 0 l.actEn), (0x4084, place 32 0 l.actCount ||| place 32 16 l.actLevel)] ++
  wide 0x4088 (s.actApplied k) ++
  [(0x4090, place 32 0 l.tapCh ||| placeB 32 8 l.tapPath ||| place 32 16 l.tapFine),
    (0x4094, place 32 0 l.tapSnap ||| place 32 16 l.tapSeq),
    (0x5000, place 32 0 p.carries ||| place 32 5 p.spState ||| placeB 32 7 p.retired ||| placeN 32 8 (s.claim (256 + k)) |||
      place 32 16 p.handovers)]

/-- The LN_ window (R12, R51, R79, R137, R238, R368). -/
def State.readLane (s : State) (off : Nat) : Word32 :=
  let k := off / 0x10000
  let o := off % 0x10000
  match arrAt 0x1000 0x100 16 o, arrAt 0x2000 0x100 16 o, arrAt 0x4100 8 17 o with
  | some (j, a), _, _ =>
    let c := 16 * k + j
    regAt ((0x08, s.chStatus c) :: chanRegs.map fun (x : Nat × Nat) => (x.1, (s.chan c).halves x.2)) a
  | _, some (j, a), _ =>
    let c := 16 * k + j
    regAt ((0x10, s.pmuStatus c) :: pmuRegs.map fun (x : Nat × Nat) => (x.1, (s.chan c).halves x.2)) a
  | _, _, some (j, a) => regAt (wide 0 (place 64 0 (s.act (17 * k + j)).ofs)) a
  | _, _, _ => regAt (s.laneRegs k) o

/-- TIM_STATUS.STATE (R192). The dead time has no code of its own: see `State.regRead`. -/
def TimState.code : TimState → Nat
  | .idle => 0
  | .waitGate => 1
  | .armed => 2
  | .started => 3
  | .dead => 0

/-- TIM_STATUS (R192). -/
def State.timStatus (s : State) (u : Nat) : Word32 :=
  let t := s.tim u
  placeN 32 0 t.st.code ||| placeB 32 2 t.ignored ||| placeB 32 3 t.refused ||| placeN 32 4 (s.timOwner u) ||| place 32 16 t.tblSeq

/-- Two entries of a bin table (R192). -/
def binsAt (l : List (BitVec 16)) (w : Nat) : Word32 := place 32 0 (l.getD (2 * w) 0) ||| place 32 16 (l.getD (2 * w + 1) 0)

/-- The registers of a TIM unit (R191). The data of the snapshot read zero while there is none (R182). -/
def State.timRegs (s : State) (u : Nat) : List (Nat × Word32) :=
  let t := s.tim u
  let fine := match t.snap with
    | some r => fineTick r.start
    | none => (0, 0)
  let iv : Word64 := match t.snap with
    | some r => r.interval
    | none => 0
  [(0x00, placeB 32 0 (t.st ≠ .idle)), (0x04, t.cfg), (0x08, t.sel), (0x0C, place 32 0 t.count)] ++ wide 0x10 t.timeout ++
  [(0x18, t.ofs), (0x1C, s.timStatus u), (0x20, s.timStat u)] ++ wide 0x28 iv ++ wide 0x30 (rtWord fine.1) ++
  [(0x38, placeN 32 0 fine.2), (0x3C, t.lost)] ++
  ((List.range 16).map fun w => (0x80 + 4 * w, binsAt t.binS w)) ++ (List.range 16).map fun w => (0xC0 + 4 * w, binsAt t.binP w)

/-- The reference registers (R191, R192). -/
def RefState.regs (r : RefState) : List (Nat × Word32) :=
  [(0x8000, placeB 32 0 r.present ||| placeB 32 1 r.relocked ||| placeB 32 2 r.holdover ||| placeB 32 3 r.returning |||
    placeB 32 4 r.latch ||| place 32 16 r.lossCount)] ++ wide 0x8008 (rtWord r.lossTime) ++ wide 0x8010 (rtWord r.returnTime)

/-- The TIM_ window (R191). -/
def State.readTim (s : State) (off : Nat) : Word32 :=
  match arrAt 0 0x100 32 off with
  | some (u, a) => regAt (s.timRegs u) a
  | none => regAt s.ref.regs off

/-- TRG_GRPg_STATUS.STATE (R216). -/
def GrpState.code : GrpState → Nat
  | .disabled => 0
  | .idle => 1
  | .armed => 2
  | .dead => 3

/-- The registers of a trigger group (R216). -/
def State.groupRegs (s : State) (g : Nat) : List (Nat × Word32) :=
  let r := s.group g
  [(0x00, r.cfg), (0x04, r.win), (0x08, r.tims)] ++ wideN 0x10 4 128 r.eng ++
  [(0x20, placeN 32 0 r.st.code ||| placeB 32 2 r.earlyArm ||| placeB 32 3 (!r.held.isEmpty)),
    (0x24, placeN 32 0 (s.claim (1024 + g)))] ++ wide 0x28 (rtWord r.fireTick) ++
  [(0x30, r.fireFine), (0x34, r.dead), (0x38, r.fireCnt)]

/-- TRG_ACQk_STATUS.STATE (R216). -/
def AcqState.code : AcqState → Nat
  | .idle => 0
  | .waitAdc => 1
  | .pre => 2
  | .post => 3
  | .close => 4

/-- TRG_ACQk_STATUS.RECNO: the record in progress, or the last one written (R216). -/
def Acq.shownRec (a : Acq) : BitVec 16 := if a.st = .idle || a.st = .waitAdc then a.lastRec else a.recno

/-- The registers of an acquisition unit (R216). -/
def State.acqRegs (s : State) (k : Nat) : List (Nat × Word32) :=
  let a := s.acq k
  [(0x00, a.cfg), (0x04, a.pre), (0x08, a.post), (0x0C, a.count), (0x10, a.region), (0x14, a.level), (0x18, a.hyst),
    (0x1C, placeB 32 0 (a.st ≠ .idle)),
    (0x20, placeN 32 0 a.st.code ||| placeN 32 4 (s.claim (768 + k)) ||| place 32 16 a.shownRec)]

/-- The TRG_ window (R216). -/
def State.readTrg (s : State) (off : Nat) : Word32 :=
  match arrAt 0x1000 0x40 16 off, arrAt 0x2000 0x40 16 off with
  | some (g, a), _ => regAt (s.groupRegs g) a
  | _, some (k, a) => regAt (s.acqRegs k) a
  | _, _ => regAt [(0, placeB 32 0 s.trg.ignored ||| placeB 32 1 s.trg.refused ||| placeB 32 2 s.trg.mismatch), (0x10, s.trg.outCfg)] off

/-- A bank's read words as LOG_FILL shows them: 2,048 reads 0x800 with the full bit (R217). -/
def fillBits (lo n : Nat) : Word32 := placeN 32 lo (n % 4096) ||| placeB 32 (lo + 12) (2048 ≤ n)

/-- The LOG_ window, its read window and read-to-clear registers apart (R217). -/
def State.readLog (s : State) (off : Nat) : Word32 :=
  let l := s.log
  regAt [(0x00, l.cfg), (0x04, l.swap), (0x08, l.kindEn), (0x10, placeN 32 0 l.pkts),
    (0x14, fillBits 0 l.fillWords ||| fillBits 16 l.draining.length), (0x18, l.lostPkts), (0x1C, l.lostWords),
    (0x20, placeB 32 0 l.levelIrq ||| placeB 32 1 l.lost ||| placeB 32 8 (!l.fillBank))] off

/-- UMP_SRCn_STATUS.STATE (R311). -/
def SrcState.code : SrcState → Nat
  | .clear => 0
  | .counting => 1
  | .severe => 2
  | .escalated => 3

/-- The registers of an Umpire source (R311). -/
def State.srcRegs (s : State) (n : Nat) : List (Nat × Word32) :=
  let r := s.src n
  [(0x00, r.cfg), (0x04, r.win), (0x08, r.timer),
    (0x0C, placeN 32 0 r.st.code ||| placeB 32 2 r.wire ||| placeB 32 4 r.pairP ||| placeB 32 3 r.pairN),
    (0x14, place 32 0 r.count ||| place 32 16 r.recoveries), (0x18, r.last)]

/-- UMP_FAULTw (R311). -/
def State.umpFaults (s : State) (w : Nat) : Word32 :=
  maskOf 32 ((List.range 32).filter fun i => (s.src (32 * w + i)).faulty || (s.src (32 * w + i)).wire)

/-- The UMP_ window (R311). -/
def State.readUmp (s : State) (off : Nat) : Word32 :=
  let u := s.ump
  match arrAt 0x800 0x10 16 off, arrAt 0x1000 0x20 96 off with
  | some (e, a), _ => fld (SMap.get (fun _ => (0 : BitVec 128)) u.hist e) (8 * a) 32
  | _, some (n, a) => regAt (s.srcRegs n) a
  | _, _ => regAt ([(0x00, placeB 32 0 s.umpFault ||| placeB 32 1 u.ignored ||| placeB 32 2 u.refused ||| placeB 32 3 u.histOvf),
      (0x04, u.irq), (0x08, u.forceDetail), (0x0C, u.wireInj ||| placeB 32 31 (s.ckC < u.injTo)),
      (0x1C, place 32 0 u.next ||| placeN 32 16 u.valid ||| placeN 32 24 u.newest)] ++
      ((List.range 3).map fun w => (0x10 + 4 * w, s.umpFaults w)) ++ wideN 0x20 4 128 u.halt) off

/-- Hot calibration waits under R219: a lane is in a round, or a round is held or requested (R237). -/
def State.calSuspended (s : State) : Bool :=
  !s.hotOk && (List.range 16).any fun k => (s.calLane k).inRound || (s.calLane k).pending

/-- The registers of a lane's calibration (R237). -/
def CalLane.regs (l : CalLane) : List (Nat × Word32) :=
  [(0x00, place 32 0 l.item ||| place 32 5 l.phase ||| placeB 32 8 l.stale ||| placeB 32 9 l.laneFault ||| place 32 10 l.fails |||
      placeB 32 12 l.pending),
    (0x04, place 32 0 l.now ||| place 32 16 l.last)] ++
  wide 0x08 ((List.range 20).foldl (fun m i => m ||| place 64 (2 * i) (SMap.get (fun _ => (0 : BitVec 2)) l.results i)) 0) ++
  [(0x10, l.deferCnt), (0x14, l.rounds), (0x18, place 32 0 l.hot)]

/-- The CAL_ window (R237). -/
def State.readCal (s : State) (off : Nat) : Word32 :=
  let c := s.cal
  match arrAt 0x100 0x20 16 off with
  | some (k, a) => regAt (s.calLane k).regs a
  | none =>
    regAt [(0x00, placeB 32 0 c.en), (0x04, place 32 0 c.dt),
      (0x08, place 32 0 (maskOf 16 ((List.range 16).filter fun k => (s.calLane k).inRound || (s.calLane k).surveyIn)) ||| placeB 32 16 s.calSuspended |||
        placeB 32 17 c.surveyBusy ||| placeB 32 24 c.refused),
      (0x10, s.calSurvey)] off

/-- The registers of a port (R265). -/
def Port.regs (r : Port) : List (Nat × Word32) :=
  [(0x00, place 32 0 r.st ||| place 32 2 r.role ||| place 32 4 r.width ||| place 32 8 r.farId ||| place 32 16 r.farPort)] ++
  wide 0x08 r.route ++ [(0x10, r.delay), (0x14, r.offset), (0x18, place 32 0 r.crc ||| place 32 16 r.late ||| place 32 24 r.down)]

/-- EZ_ID (R265). -/
def Ez.idReg (z : Ez) : Word32 :=
  place 32 0 z.id ||| placeB 32 6 z.valid ||| placeB 32 7 z.root ||| place 32 8 z.parent ||| place 32 12 z.depth |||
  placeB 32 14 z.stroke ||| placeB 32 15 z.standby

/-- EZ_STATUS (R265). -/
def Ez.statusReg (z : Ez) : Word32 :=
  placeB 32 0 z.enumDone ||| placeB 32 1 z.surveyBusy ||| placeB 32 2 (z.applied ≠ z.target) ||| placeB 32 3 z.orphan |||
  placeB 32 8 z.surveyFail ||| placeB 32 9 z.lateEvent ||| placeB 32 10 z.refused ||| placeB 32 11 z.apLost |||
  placeB 32 12 z.catchDrift

/-- EZ_EA_STATUS (R265). -/
def EaSt.statusReg (a : EaSt) : Word32 :=
  placeB 32 0 a.latched ||| placeB 32 1 a.safe ||| place 32 2 a.kind ||| place 32 8 a.id ||| place 32 16 a.num

/-- The EZ_ window (R265). -/
def State.readEz (s : State) (off : Nat) : Word32 :=
  let z := s.ez
  match arrAt 0x1000 0x100 5 off with
  | some (p, a) => regAt (s.port p).regs a
  | none =>
    regAt ([(0x00, z.idReg), (0x08, z.statusReg), (0x0C, z.strokeReg)] ++ wide 0x10 z.members ++
      [(0x18, BitVec.ofInt 32 z.target), (0x1C, BitVec.ofInt 32 z.applied), (0x20, place 32 0 z.phase ||| place 32 16 z.ref),
        (0x24, place 32 0 z.tol), (0x28, z.misses), (0x2C, z.gen),
        (0x30, (z.role &&& 0x3F0F) ||| placeB 32 16 z.roleBusy ||| place 32 24 z.roleResult),
        (0x40, s.ea.cfg), (0x48, s.ea.statusReg)] ++ wide 0x50 (rtWord s.ea.time)) off

/-- Windows carrying DRAIN_PENDING (R171). -/
def State.drainsPending (s : State) : Nat := (s.regions.filter fun r => r.2.live && r.2.drainPending).length

/-- The registers of an NVMe port (R171). -/
def State.nvRegs (s : State) (k : Nat) : List (Nat × Word32) :=
  let v := s.nv k
  [(0x00, place 32 0 v.state ||| place 32 4 v.speed ||| place 32 8 v.width ||| place 32 16 v.errors)] ++
  wide 0x08 (BitVec.ofNat 64 v.cap) ++ wide 0x10 (BitVec.ofNat 64 (s.driveFree k))

/-- The registers of a geometry descriptor (R171). -/
def State.geomRegs (s : State) (g : Nat) : List (Nat × Word32) :=
  let x := s.geom g
  wide 0x00 x.fields ++ [(0x08, x.cfg ||| placeB 32 16 (s.geomInUse g))] ++
  (List.range 64).map fun w => (0x100 + 4 * w, SMap.get (fun _ => BitVec.allOnes 32) x.dbi w)

/-- The rating of an engine's admitted heat (R171). -/
def Engine.rating (r : Engine) : Nat :=
  match r.heat with
  | some h => h.rating
  | none => 0

/-- The FC_ window (R171). -/
def State.readFc (s : State) (off : Nat) : Word32 :=
  let f := s.fc
  match arrAt 0x40 0x20 4 off, arrAt 0x1000 0x10 128 off, arrAt 0x2000 0x200 16 off, arrAt 0x4000 4 256 off with
  | some (k, a), _, _, _ => regAt (s.nvRegs k) a
  | _, some (n, a), _, _ => regAt [(0, (s.eng n).oow), (4, (s.eng n).logcnt), (8, placeN 32 0 (s.eng n).rating)] a
  | _, _, some (g, a), _ => regAt (s.geomRegs g) a
  | _, _, _, some (c, _) => (s.chan c).failCnt
  | _, _, _, _ =>
    regAt ([(0x00, placeB 32 0 f.ignored ||| placeB 32 1 f.refused ||| placeB 32 2 f.drainRefused ||| placeB 32 8 f.job.isSome |||
        placeN 32 16 (min 65535 s.drainsPending)),
      (0x08, placeN 32 0 s.ratingTotal)] ++ wide 0x10 (BitVec.ofNat 64 s.capFree) ++ wide 0x18 (BitVec.ofNat 64 s.capBacked) ++
      wide 0x20 f.drainBytes ++ [(0x28, f.hbmUe)] ++ wideN 0x30 3 96 f.drainLast) off

/-- A rail-sense state code (R351). -/
def SnsOut.code : SnsOut → Nat
  | .low => 0
  | .high => 1
  | .unsettled => 2

/-- The RS_ window (R351). -/
def State.readRs (s : State) (off : Nat) : Word32 :=
  match arrAt 0x100 0x10 8 off with
  | some (n, a) =>
    let r := s.sn n
    regAt [(0, r.thr), (4, r.cfg),
      (8, placeN 32 0 r.hi.code ||| placeN 32 2 r.lo.code ||| place 32 4 r.evt ||| placeB 32 8 r.rbErr)] a
  | none => regAt [(0, placeB 32 0 s.rs.refused ||| placeB 32 8 (s.rs.check ≠ 0)), (4, s.rs.irq), (8, place 32 0 s.rs.check)] off

/-- The BH_ window (R334). -/
def State.readBh (s : State) (off : Nat) : Word32 :=
  let b := s.bh
  match arrAt 0x100 4 24 off, arrAt 0x180 4 9 off, arrAt 0x1000 4 1024 off, arrAt 0x2000 4 1024 off with
  | some (n, _), _, _, _ => place 32 0 (s.bhTemp n)
  | _, some (n, _), _, _ => place 32 0 (s.bhVolt n) ||| place 32 16 (s.bhCurrent n)
  | _, _, some (i, _), _ => BitVec.ofNat 32 (leNat (b.mbxReq.readN 0 (4 * i) 4))
  | _, _, _, some (i, _) => BitVec.ofNat 32 (leNat (b.mbxRsp.readN 0 (4 * i) 4))
  | _, _, _, _ =>
    regAt [(0x00, s.bhStatus), (0x04, b.policySeq), (0x08, s.bhProposal),
      (0x10, place 32 0 b.mbxType ||| place 32 16 b.mbxLen ||| placeB 32 31 b.mbxBusy),
      (0x14, placeB 32 0 b.mbxBusy ||| place 32 8 b.mbxStatus ||| place 32 16 b.mbxRspLen)] off

/-- The AON_ window (R352). -/
def State.readAon (s : State) (off : Nat) : Word32 :=
  regAt [(0, s.power.cause), (4, s.power.wakeEn), (8, place 32 0 (s.power.enables s.now) ||| place 32 8 s.power.pg)] off

/-- The windows that work before READY (R25, R270). -/
def State.readAlways (s : State) (off : Nat) : Word32 :=
  if off < 0x10000 then s.readGbl off
  else if 0x380000 ≤ off && off < 0x390000 then s.readBh (off - 0x380000)
  else if 0x3F0000 ≤ off && off < 0x400000 then s.readAon (off - 0x3F0000)
  else 0

/-- The value of a BAR0 register (R7, R25, R270). -/
def State.regValue (s : State) (off : Nat) : Word32 :=
  if s.dev.base = .stop || off % 4 ≠ 0 then 0
  else if off < 0x10000 || 0x380000 ≤ off || !s.dev.ready then s.readAlways off
  else if off < 0x20000 then s.readHq (off - 0x10000)
  else if 0x100000 ≤ off && off < 0x180000 then s.readCox (off - 0x100000)
  else if 0x200000 ≤ off && off < 0x300000 then s.readLane (off - 0x200000)
  else
    match off / 0x10000 with
    | 0x30 => s.readTim (off - 0x300000)
    | 0x31 => s.readTrg (off - 0x310000)
    | 0x32 => s.readLog (off - 0x320000)
    | 0x33 => s.readUmp (off - 0x330000)
    | 0x34 => s.readCal (off - 0x340000)
    | 0x35 => s.readEz (off - 0x350000)
    | 0x36 => s.readFc (off - 0x360000)
    | 0x37 => s.readRs (off - 0x370000)
    | _ => 0

/-- Bits of a register at an offset whose value the spec leaves open as it is read: TIM_STATUS.STATE in the dead time (R175, R191;
log entry 48), and whether the port of a drive that is not ONLINE reads ABSENT or TRAINING (R171; log entry 123). -/
def State.openBits (s : State) (off : Nat) : Word32 :=
  if !s.dev.ready || off % 4 ≠ 0 then 0
  else
    match arrAt 0x300000 0x100 32 off, arrAt 0x360040 0x20 4 off with
    | some (u, 0x1C), _ => if (s.tim u).st = .dead then 3 else 0
    | _, some (k, 0x00) => if (s.nv k).state = 0 then 1 else 0
    | _, _ => 0

/-- The APG readback of a RUNNING engine at an offset, as it stood in each of the recent ticks (R137); none elsewhere. -/
def State.apgRecent (s : State) (off : Nat) : List Word32 :=
  if s.dev.ready && off % 4 = 0 && 0x100000 ≤ off && off < 0x180000 && apgRegMask (off % 0x1000) ≠ 0 then
    let r := s.eng ((off - 0x100000) / 0x1000)
    if r.st = .running then (r.regs.apg :: r.apgPast).map fun a => regAt a.regs (off % 0x1000) else []
  else []

/-- What a read does besides: a snapshot (R182), the read window (R214) and the read-to-clear counts (R212). -/
def State.readEffect (s : State) (off : Nat) : State :=
  if !s.dev.ready || s.dev.base = .stop || off % 4 ≠ 0 then s
  else
    match arrAt 0x300000 0x100 32 off, arrAt 0x321000 4 1024 off with
    | some (u, 0x20), _ => s.timSnapshot u
    | _, some (d, _) => { s with log := (s.log.readDword d).2 }
    | _, _ =>
      if off = 0x320018 then { s with log := { s.log with lostPkts := 0 } }
      else if off = 0x32001C then { s with log := { s.log with lostWords := 0 } }
      else s

/-- A read of one dword of BAR0 (R7, R8): its value and the state it leaves. -/
def State.regRead (s : State) (off : Nat) : Word32 × State :=
  let v := match arrAt 0x321000 4 1024 off with
    | some (d, _) => if s.dev.ready && off % 4 = 0 && s.dev.base ≠ .stop then (s.log.readDword d).1 else 0
    | none => s.regValue off
  let m := s.openBits off
  match s.apgRecent off with
  | [] =>
    if m = 0 then (v, s.readEffect off)
    else
      let (f, s) := s.takeFree
      ((v &&& ~~~m) ||| (fld f 0 32 &&& m), s)
  | l =>
    let (f, s) := s.takeFree
    (l.getD (f.toNat % l.length) v, s)

end Sys2Proof.Machine
end

