-- ==== Sys2Proof/Machine/Regatta.lean ====
section
/-! DEFINITION. Enumeration and the tree (R246 to R250), common time (R251 to R256), roles and the stroke (R250, R257 to R260),
and Easy-All (R261, R262). -/

namespace Sys2Proof.Machine

/-- A heat is active on some member (R247): here, on one that has said so, or on one to which a HEAT_START is in flight. -/
def State.heatsActive (s : State) : Bool :=
  s.anyEngine (fun e => e.active || e.heat.isSome) || s.ez.heatIds ≠ 0 ||
  s.host.inflight.any fun c => c.opc = 0x01 && c.stage = .remote

/-- A member tells the root when its first heat becomes active, and when its last one ends (R247). -/
def State.tellHeats (s : State) : State :=
  let a := s.anyEngine fun e => e.active || e.heat.isSome
  if s.isTop || a = s.ez.heatsTold then s
  else State.sendTo { s with ez := { s.ez with heatsTold := a } } 0 (.heats a)

/-- A refused EZ_ write (R265). -/
def State.ezRefuse (s : State) : State := { s with ez := { s.ez with refused := true } }

/-- EZ_CTRL_ENUM (R247). -/
def execEzCtrlEnum (s : State) : Host.Outcome State Fault Refusal :=
  .next (whenReady s fun s =>
    if s.isTop && !s.heatsActive then { s with ez := { s.ez with enumBusy := true, enumDone := false } } else s.ezRefuse)

/-- EZ_CTRL_SURVEY (R255). -/
def execEzCtrlSurvey (s : State) : Host.Outcome State Fault Refusal :=
  .next (whenReady s fun s => s.wantSurvey)

/-- EZ_CTRL_TAKEOVER (R258): on the standby alone. -/
def execEzCtrlTakeover (s : State) : Host.Outcome State Fault Refusal :=
  .next (whenReady s fun s => if s.ez.standby then s.becomeStroke s.rtick else s)

/-- A device that enumeration has reached (R247): the finder's number for it, its ID, its hops below the root, and its parent, with
the parent's port. -/
structure TreeNode where
  dev : Nat
  id : Nat
  depth : Nat
  parent : Nat
  port : Nat
deriving DecidableEq, Repr

/-- What port p of device d is cabled to. -/
def farEnd (l : List Cable) (d p : Nat) : Option (Nat × PortId) :=
  firstSome (fun c => if c.a = d && c.pa.val = p then some (c.b, c.pb)
    else if c.b = d && c.pb.val = p then some (c.a, c.pa) else none) l

/-- Devices of a regatta (R247). -/
def maxMembers : Nat := 64

/-- The subtree of a device in preorder, E1 first (R247): E0 of the device below is its port UPSTREAM (R246). -/
def enumFrom (l : List Cable) : Nat → List TreeNode → TreeNode → List TreeNode
  | 0, acc, _ => acc
  | n + 1, acc, t => [1, 2, 3, 4].foldl (fun acc p =>
      match farEnd l t.dev p with
      | some (e, q) =>
        if q.val = 0 && !acc.any (fun x => x.dev = e) && decide (acc.length < maxMembers) then
          let m : TreeNode := ⟨e, acc.length, t.depth + 1, t.id, p⟩
          enumFrom l n (acc ++ [m]) m
        else acc
      | none => acc) acc

/-- Every device that is enumerated: the root is 0, and none lies more than 3 hops below it (R247). -/
def enumerate (l : List Cable) : List TreeNode := enumFrom l maxHops [⟨0, 0, 0, 64, 0⟩] ⟨0, 0, 0, 64, 0⟩

/-- The parents by ID. -/
def treeOf (l : List TreeNode) : SMap Nat := (l.filter fun n => n.id ≠ 0).map fun n => (n.id, n.parent)

/-- ID a lies on the way from i up to the root, i itself included. -/
def treeAbove (t : SMap Nat) (a : Nat) : Nat → Nat → Bool
  | 0, i => i = a
  | n + 1, i => i = a || (match SMap.get? t i with
    | some p => treeAbove t a n p
    | none => false)

/-- Hops of ID i below the root. -/
def treeDepth (t : SMap Nat) : Nat → Nat → Nat
  | 0, _ => 0
  | n + 1, i => match SMap.get? t i with
    | some p => treeDepth t n p + 1
    | none => 0

/-- The subtree of ID i: i and every enumerated ID below it. -/
def subtree (t : SMap Nat) (all : Word64) (i : Nat) : List Nat := (bitsOf 64 all).filter fun j => treeAbove t i (maxHops + 1) j

/-- The mask of a subtree (R248). -/
def subtreeMask (t : SMap Nat) (all : Word64) (i : Nat) : Word64 := maskOf 64 (subtree t all i)

/-- What enumeration settles for port p of device `m` (R246 to R248): UPSTREAM or DOWNSTREAM along the tree, CROSS between two other
members, and EXCLUDED where the far end is not enumerated. -/
def Port.settle (r : Port) (l : List Cable) (nodes : List TreeNode) (m : TreeNode) (p : Nat) : Port :=
  match farEnd l m.dev p with
  | none => { r with role := 0, route := 0 }
  | some (e, q) =>
    match nodes.find? fun n => n.dev = e with
    | none => { r with st := 3, role := 0, farPort := BitVec.ofNat 3 q.val, route := 0 }
    | some n =>
      let down := n.id ≠ 0 && n.parent = m.id && n.port = p
      let up := m.id ≠ 0 && m.parent = n.id && m.port = q.val && p = 0
      { r with
        st := if r.st = 3 then 2 else r.st
        role := if up then 1 else if down then 2 else 3
        farId := BitVec.ofNat 6 n.id
        farPort := BitVec.ofNat 3 q.val
        route := if down then subtreeMask (treeOf nodes) (maskOf 64 (nodes.map (·.id))) n.id else 0 }

/-- The tick of the raw grid within its frame (R252). -/
def State.rawPhase (s : State) : Nat := (((s.now : Int) + s.ez.lead) % (frameTicks : Int)).toNat

/-- The frame count f holds from the second boundary after the instant at which a raw grid stood at tick y of its frame (R252; log
entry 130). This device's grid stands within half a frame of that one's: the boundary lies on its own grid, which the load leaves where
it is. -/
def State.nameFrame (s : State) (f y : Nat) : State :=
  let x : Int := s.rawPhase
  let past : Int := (x - y + frameTicks / 2) % frameTicks - frameTicks / 2
  { s with ez := { s.ez with frameLoad := some (f, ((s.now : Int) + 2 * frameTicks - y - past).toNat) } }

/-- The stroke names a frame count and a frame boundary that every member has yet to meet, its next but one, and loads it itself
(R252; log entry 130). The flit says where in its frame the stroke's grid stands as it is sent. -/
def State.sendFrameLoad (s : State) : State :=
  let k : Nat := (((s.now : Int) + s.ez.lead) / (frameTicks : Int)).toNat + 2
  (s.sendAll s.otherIds (.frameLoad (BitVec.ofNat 48 k) s.rawPhase)).nameFrame k s.rawPhase

/-- ENUMERATION_DONE (R246 to R248, R252, R257) on the device that the finder numbers `me`: IDs, roles and routes are settled, a device
that is not reached stays as it was. Then the stroke is 0 with no standby, the root names the frame count, and the first survey ends
the enumeration, which a member alone does without. -/
def execEnumerationDone (me : Nat) (cables : List Cable) (s : State) : Host.Outcome State Fault Refusal :=
  .next (inRun s fun s =>
    let nodes := enumerate cables
    match nodes.find? fun n => n.dev = me with
    | none => s
    | some m =>
      if s.anyEngine Engine.active then s
      else
        let s := (List.range 5).foldl (fun s p => s.updPort p fun r => r.settle cables nodes m p) s
        let alone := nodes.length ≤ 1
        let ids : Word64 := maskOf 64 (nodes.map (·.id))
        let s := { s with ez := { s.ez with
          id := BitVec.ofNat 6 m.id
          valid := true
          root := m.id = 0
          parent := if m.id = 0 then 15 else 0
          depth := BitVec.ofNat 2 m.depth
          members := ids
          all := ids
          tree := treeOf nodes
          couplings := []
          heatIds := 0
          enumBusy := !alone
          enumDone := alone } }
        let s := s.takeStroke 0
        if alone then State.settleSkew { s with ez := { s.ez with target := 0 } }
        else if m.id = 0 then s.sendFrameLoad.startSurveys
        else s)

/-- The mean of the last arrivals, 16 at most, to a neighbouring fu (R256; log entry 131). -/
def catchMean (l : List Int) : Int := if l.isEmpty then 0 else freeQuot (l.foldl (· + ·) 0) l.length

/-- A survey ends on this member with its target, or without one (R253 to R256): links that have no result have failed. The one
that ends an enumeration tells the members the couplings anew (log entry 148). -/
def State.endSurvey (s : State) (t : Option Int) : State :=
  let s := ((s.portsOf 2).filter fun p => !(s.port p).ttOver).foldl State.linkFails s
  let again := s.ez.surveyAgain
  let first := s.ez.enumBusy
  let s := State.settleSkew { s with ez := { s.ez with
    target := t.getD s.ez.target
    surveyBusy := false
    surveyAgain := false
    svResult := none
    ref := BitVec.ofInt 16 (catchMean s.ez.phases)
    enumDone := s.ez.enumDone || s.ez.enumBusy
    enumBusy := false } }
  let s := if first then s.tellCouplings else s
  if again && s.isTop then s.startSurveys else s

/-- Every link of the tree has reported to the root. -/
def State.surveyHeard (s : State) : Bool := s.otherIds.all fun i => SMap.has s.ez.links i

/-- SKEW_SURVEY_DONE (R253 to R256). The root has heard of every link, or 5 ms have passed: it sends each member its target, P_X - P_s,
or the word that it lies below a failed link and keeps its own. Any other member ends its part with what the root sent. -/
def execSkewSurveyDone (s : State) : Host.Outcome State Fault Refusal :=
  .next (inRun s fun s =>
    let late := decide (s.ez.surveyAt + surveyTicks ≤ s.now)
    if !s.ez.surveyBusy then s
    else if s.isTop then
      if !(s.surveyHeard || late) then s
      else
        let stroke := strokeId s.ez.strokeReg
        let s := s.otherIds.foldl (fun s i => s.sendTo i (.skewTarget (s.targetOf i stroke))) s
        s.endSurvey (s.targetOf s.ez.id.toNat stroke)
    else
      match s.ez.svResult with
      | some t => s.endSurvey t
      | none => if late then s.endSurvey none else s)

/-- SKEW_SLEW_STEP (R254): 1 fu per 64 ticks while a heat is RUNNING or HELD. -/
def execSkewSlewStep (s : State) : Host.Outcome State Fault Refusal :=
  .next (inRun s fun s =>
    let z := s.ez
    if z.applied = z.target || !s.anyEngine Engine.active || s.now < z.slewAt + 64 then s
    else State.setSkew { s with ez := { z with slewAt := s.now } }
      (if z.applied < z.target then z.applied + 1 else z.applied - 1))

/-- Fields of EZ_ROLE (R265). -/
def rolePort (v : Word32) : Nat := fldN v 0 3
def roleStroke (v : Word32) : Bool := bit v 3
def rolePeer (v : Word32) : Nat := fldN v 8 6

/-- Payload of a ROLE event (R242). -/
def rolePayload (stroke : Bool) (peer what : Nat) : BitVec 30 := placeB 30 0 stroke ||| placeN 30 1 peer ||| placeN 30 7 what

/-- The role request ends with a result (R250). -/
def State.roleEnd (s : State) (st : Byte) : State := { s with ez := { s.ez with roleBusy := false, roleResult := st } }

/-- One of this device and a peer is the stroke. -/
def State.strokeAmong (s : State) (peer : Nat) : Bool := s.ez.stroke || strokeId s.ez.strokeReg = peer

/-- The far end of the port of a DIRECTION request, where the link is CROSS and UP. -/
def State.crossPeer (s : State) (v : Word32) : Option Nat :=
  let r := s.port (rolePort v)
  if rolePort v < 5 && r.up && r.role = 3 then some r.farId.toNat else none

/-- Two values of EZ_ROLE ask for the same (R250): the same port, or the same peer. -/
def sameRole (a b : Word32) : Bool :=
  roleStroke a = roleStroke b && (if roleStroke a then rolePeer a = rolePeer b else rolePort a = rolePort b)

/-- The span after a conflict in which a repeat conflicts again (R250): 10 us. -/
def conflictTicks : Nat := 16000

/-- EZ_ROLE_GO (R250): the register takes every write; a GO while a request is pending sends none (DESIGN CHOICE, log entry 132). -/
def execEzRoleGo (v : Word32) (s : State) : Host.Outcome State Fault Refusal :=
  .next (whenReady s fun s =>
    let s := { s with ez := { s.ez with role := v &&& 0x3F0F } }
    if s.ez.roleBusy then s
    else
      let s := { s with ez := { s.ez with roleReq := s.ez.role } }
      let soon : Bool := match s.ez.roleConflict with
        | some t => sameRole s.ez.role s.ez.roleLost && decide (s.now < t + conflictTicks)
        | none => false
      let go := fun (s : State) => { s with ez := { s.ez with roleBusy := true, roleAt := s.now } }
      if soon then s.roleEnd stRoleConflict
      else if roleStroke v then
        if bit s.ez.members (rolePeer v) && s.strokeAmong (rolePeer v) then
          (go s).sendOrdered 7 s.rtick (rolePayload true (rolePeer v) 0) id
        else s.roleEnd stDenied
      else
        match s.crossPeer v with
        | some i => (go s).sendEvt (rolePort v) 7 s.rtick (rolePayload false i 0)
        | none => s.roleEnd stDenied)

/-- ROLE_REQUEST_TIMEOUT (R250): 100 us. -/
def execRoleRequestTimeout (s : State) : Host.Outcome State Fault Refusal :=
  .next (inRun s fun s =>
    if s.ez.roleBusy && decide (s.ez.roleAt + 100 * usTicks ≤ s.now) then s.roleEnd stTimeout else s)

/-- This device has itself asked the sender of a request that names it: the two meet (R250). -/
def State.roleMeets (s : State) (src : Nat) (stroke : Bool) : Bool :=
  s.ez.roleBusy && roleStroke s.ez.roleReq = stroke &&
  (if stroke then rolePeer s.ez.roleReq = src else (s.port (rolePort s.ez.roleReq)).farId.toNat = src)

/-- The route masks follow the tree (R248, R250). -/
def State.reroute (s : State) : State :=
  (List.range 5).foldl (fun s p => s.updPort p fun r =>
    { r with route := if r.role = 2 then subtreeMask s.ez.tree s.ez.all r.farId.toNat else 0 }) s

/-- The first port with a role towards an ID. -/
def State.portTo (s : State) (role id : Nat) : Option Nat :=
  (List.range 5).find? fun p => (s.port p).role.toNat = role && (s.port p).farId.toNat = id

/-- A port takes a role. -/
def State.setRole (s : State) (p : Option Nat) (role : BitVec 2) : State :=
  match p with
  | some p => s.updPort p fun r => { r with role := role }
  | none => s

/-- The tree has a new parent for a member (R250): depths and masks follow. IDs do not change. -/
def State.newParent (s : State) (child parent : Nat) : State :=
  let t := SMap.put s.ez.tree child parent
  let s := { s with ez := { s.ez with tree := t, depth := BitVec.ofNat 2 (treeDepth t (maxHops + 1) s.ez.id.toNat) } }
  s.reroute

/-- This device has the far end of its CROSS link on port p as its new parent (R250): the link becomes UPSTREAM, and the old UPSTREAM
port CROSS. It is an orphan no longer. -/
def State.takeParent (s : State) (p : Nat) : State :=
  if !(s.port p).up || (s.port p).role ≠ 3 then s
  else
    let s := s.setRole ((List.range 5).find? fun q => (s.port q).role = 1) 3
    let s := s.setRole (some p) 1
    State.newParent { s with ez := { s.ez with parent := BitVec.ofNat 4 p, orphan := false } }
      s.ez.id.toNat (s.port p).farId.toNat

/-- Member `child` has a new parent (R250), as the root tells every member: on that parent the CROSS link becomes DOWNSTREAM, and on the
one before it the link to the child becomes CROSS. The child itself may have learned it from the grant. -/
def State.reparent (s : State) (child parent : Nat) : State :=
  let me := s.ez.id.toNat
  if child = me then
    match s.portTo 1 parent, s.portTo 3 parent with
    | none, some p => s.takeParent p
    | _, _ => s.newParent child parent
  else
    let down := if parent = me then s.portTo 3 child else none
    let old := if SMap.get? s.ez.tree child = some me then s.portTo 2 child else none
    ((s.setRole down 2).setRole old 3).newParent child parent

/-- The root may grant a DIRECTION request (R250): the far end has a live path to the root that does not pass through the requester,
and every device of the requester's subtree stays within 3 hops of the root. -/
def State.mayReparent (s : State) (child parent : Nat) : Bool :=
  let t := s.ez.tree
  let d := treeDepth t (maxHops + 1)
  bit s.ez.members parent && child ≠ 0 && !treeAbove t child (maxHops + 1) parent &&
  (subtree t s.ez.all child).all fun i => decide (d parent + 1 + (d i - d child) ≤ maxHops)

/-- A grant of a request of `who` at regatta tick t (R250, R255, R259): the requester takes the stroke, or the far end of port p as its
parent. The other members learn the new parent from the root. -/
def State.roleGrant (s : State) (stroke : Bool) (who t p : Nat) : State :=
  let mine := who = s.ez.id.toNat && s.ez.roleBusy
  let s := if mine then s.roleEnd stOk else s
  if who ≠ s.ez.id.toNat then s
  else if !stroke then s.takeParent p
  else if mine && !s.ez.stroke then s.becomeStroke t
  else s

/-- A refusal of a request of `who` (R250). -/
def State.roleRefuse (s : State) (who : Nat) : State :=
  if who = s.ez.id.toNat && s.ez.roleBusy then s.roleEnd stDenied else s

/-- The CROSS links to the requester of a DIRECTION request: the answer goes there too, since an orphan hears no broadcast
(R250; DEDUCED, log entry 144). -/
def State.crossTo (s : State) (stroke : Bool) (peer : Nat) : List Nat :=
  if stroke then [] else (s.portsOf 3).filter fun p => (s.port p).farId.toNat = peer

/-- An answer to a request of `peer`, here too where this device is the top of the tree. -/
def State.roleAnswer (s : State) (stroke : Bool) (peer : Nat) (ok : Bool) : State :=
  let t := s.rtick
  let v := rolePayload stroke peer (if ok then 1 else 2)
  (s.sendEvts (s.crossTo stroke peer) 7 t v).sendOrdered 7 t v fun s =>
    if ok then s.roleGrant stroke peer t (rolePort s.ez.roleReq) else s.roleRefuse peer

/-- A STROKE request that names this device (R250, R259): granted where one of the two is the stroke, and the other takes the role at
the instant of the grant. -/
def State.strokeRequest (s : State) (src : Nat) : State :=
  let ok := s.strokeAmong src
  let mine := s.ez.stroke
  let t := s.rtick
  let s := s.roleAnswer true src ok
  if ok && !mine then s.becomeStroke t else s

/-- A DIRECTION request reaches the root (R250, R255): on a grant every member learns the new parent, those that the new link reaches
again are members again, and a survey follows. -/
def State.directionRequest (s : State) (src peer : Nat) : State :=
  let ok := s.mayReparent src peer
  let s := s.roleAnswer false src ok
  if ok then
    let word : DataPayload := .reparent (BitVec.ofNat 6 src) (BitVec.ofNat 6 peer)
    let back := (subtree s.ez.tree s.ez.all src).filter fun i => !bit s.ez.members i
    let s := (s.sendAll s.otherIds word).reparent src peer
    let s := { s with ez := { s.ez with members := s.ez.members ||| maskOf 64 back } }
    let s := if back.isEmpty then s else (s.sendAll back word).sendAll s.otherIds (.reach s.ez.members)
    s.startSurveys
  else s

/-- A ROLE request reaches the device it names, or the root (R250). Of two that meet, the one of the lower ID proceeds. -/
def State.roleRequest (s : State) (src peer : Nat) (stroke : Bool) (go : State → State) : State :=
  let me := s.ez.id.toNat
  let meets := peer = me && s.roleMeets src stroke
  if meets && decide (me < src) then s
  else
    go (if meets then
      let s := s.roleEnd stRoleConflict
      { s with ez := { s.ez with roleConflict := some s.now, roleLost := s.ez.roleReq } } else s)

/-- A grant or a refusal of a request of `who` arrives (R242, R250). -/
def State.roleEvent (s : State) (stroke : Bool) (what who t p : Nat) : State :=
  if what = 1 then s.roleGrant stroke who t p
  else if what = 2 then s.roleRefuse who
  else s

/-- EZ_EVT_ROLE (R242, R246, R250). A DIRECTION request comes to the far end of a CROSS link, which passes it on to the root, and the
answer on to the requester. -/
def execEzEvtRole (rx : EvtRx) (s : State) : Host.Outcome State Fault Refusal :=
  .next (inRun s fun s =>
    let stroke := bit rx.payload 0
    let peer := fldN rx.payload 1 6
    let what := fldN rx.payload 7 2
    let src := rx.src.toNat
    let p := rx.port.val
    if (s.port p).up && (s.port p).role = 3 then
      s.receiveEvt rx 7 (fun _ => none) fun s _ t =>
        if stroke then s
        else if what = 0 then
          s.roleRequest src peer false fun s =>
            if s.isTop then s.directionRequest src peer else s.relay (s.portsOf 1) 7 rx
        else s.roleEvent false what peer t p
    else
      s.receive rx 7 (fun _ => none) fun s _ t =>
        if what = 0 then
          if stroke then (if peer = s.ez.id.toNat then s.roleRequest src peer true fun s => s.strokeRequest src else s)
          else if s.isTop && (s.port p).role = 2 then s.directionRequest src peer
          else s
        else (s.relay (s.crossTo stroke peer) 7 rx).roleEvent stroke what peer t (rolePort s.ez.roleReq))

/-- A frame count that has been named is loaded at its boundary (R252), on the raw grid as it stands. -/
def State.loadFrame (s : State) : State :=
  match s.ez.frameLoad with
  | some (f, t) =>
    if t ≤ s.now then
      { s with ez := { s.ez with lead := (f : Int) * frameTicks - t, frameLoad := none } }
    else s
  | none => s

/-- The stroke drives CATCH from the first frame whose boundary, regatta tick b, lies at least a frame after it took the role
(R259). -/
def State.mayCatch (s : State) (b : Nat) : Bool :=
  s.ez.stroke && (match s.ez.newStrokeFrom with
    | some t => decide (t + frameTicks ≤ b)
    | none => true)

/-- FRAME_START (R172, R251, R252): tick 0 is an edge of the internal source FRAME; the stroke drives CATCH_OUT high for 16 ticks
from it. -/
def execFrameStart (s : State) : Host.Outcome State Fault Refusal :=
  .next (inRun s fun s =>
    let s := s.loadFrame
    let t := s.rtick % frameTicks
    let s := if t < 16 then s.timEdges (fun _ src => src = 26) ((s.rtick - t) * 131072) else s
    if t < 16 && s.mayCatch (s.rtick - t) then
      { s with ez := { s.ez with catchOut := true, catchFall := s.rtick - t + 16, newStrokeFrom := none } }
    else s)

/-- The level of CATCH_OUT. -/
def State.catchLevel (s : State) : Bool := s.ez.catchOut && decide (s.rtick < s.ez.catchFall)

/-- An arrival missing or more than 4 ticks away (R256, R258). -/
def State.catchMiss (s : State) : State :=
  let first := s.ez.missRun = 0
  let s := { s with ez := { s.ez with misses := satInc s.ez.misses, missRun := s.ez.missRun + 1 } }
  let s := if first then s.umpEvent 56 1 else s
  if s.ez.standby && decide (2 ≤ s.ez.missRun) then s.becomeStroke s.rtick else s

/-- CATCH_MISS (R256): the run of arrivals that drift is broken. -/
def execCatchMiss (s : State) : Host.Outcome State Fault Refusal :=
  .next (inRun s fun s => State.catchMiss { s with ez := { s.ez with driftRun := 0 } })

/-- The pulse comes from the new stroke (R260). -/
def State.fromNewStroke (s : State) : Bool :=
  match s.ez.newStrokeFrom with
  | some t => decide (t + frameTicks ≤ s.rtick + 16)
  | none => true

/-- An arrival against REF (R256): eight in a row beyond the tolerance set CATCH_DRIFT and ask for a survey. -/
def State.catchDrifts (s : State) (phase : Int) : State :=
  let far := decide (s.ez.tol.toNat < (phase - s.ez.ref.toInt).natAbs)
  let n := if far then s.ez.driftRun + 1 else 0
  let s := { s with ez := { s.ez with
    driftRun := if n = 8 then 0 else n
    catchDrift := s.ez.catchDrift || n = 8 } }
  if n = 8 then s.wantSurvey else s

/-- CATCH_IN_PULSE (R252, R256, R260): the first one during BOOT sets the raw grid. An arrival more than 4 ticks from tick 0 counts as
missing too. -/
def execCatchInPulse (phase : Int) (s : State) : Host.Outcome State Fault Refusal :=
  .next (inRun s fun s =>
    if s.dev.base = .boot && !s.ez.grid then { s with ez := { s.ez with grid := true, lead := -(s.now : Int) } }
    else
      let s := { s with ez := { s.ez with phase := BitVec.ofInt 16 phase, phases := phase :: s.ez.phases.take 15 } }
      let s := s.catchDrifts phase
      if 4 * 512 < phase.natAbs then s.catchMiss
      else { s with ez := { s.ez with missRun := 0, gotCatch := s.ez.gotCatch || s.fromNewStroke } })

/-- The check word of a generation: CRC-32 over what its two flits say (R257; their bits are the device's own, log entry 127). -/
def genCrc (frame : BitVec 48) (catchOut : Bool) (stroke number : Word32) : Word32 :=
  crc32Bits (place 113 0 frame ||| placeB 113 48 catchOut ||| place 113 49 stroke ||| place 113 81 number)

/-- The standby keeps a generation whose commit arrived intact, and discards any other (R257). -/
def State.keepGeneration (s : State) (n crc : Word32) : State :=
  match s.ez.genPend with
  | some (f, co, v) =>
    let s := { s with ez := { s.ez with genPend := none } }
    if crc = genCrc f co v n then
      { s with ez := { s.ez with
        gen := n
        genFrame := f
        genCatch := co
        genStroke := v
        genTick := s.rtick - s.rtick % frameTicks
        genAt := s.now } }
    else s
  | none => s

/-- STROKE_GENERATION (R257): at a frame boundary, once per millisecond. -/
def execStrokeGeneration (s : State) : Host.Outcome State Fault Refusal :=
  .next (inRun s fun s =>
    let v := s.ez.strokeReg
    if s.ez.stroke && standbyEn v && s.rtick % frameTicks < 16 &&
        (s.ez.genSent = 0 || decide (s.ez.genAt + 6 * frameTicks ≤ s.now)) then
      let n := s.ez.genSent + 1
      let f := BitVec.ofNat 48 (s.rtick / frameTicks)
      let co := s.mayCatch s.rtick
      let s := s.sendTo (standbyId v) (.generation f co v)
      let s := s.sendTo (standbyId v) (.genCommit n (genCrc f co v n))
      { s with ez := { s.ez with genSent := n, genAt := s.now } }
    else s)

/-- GENERATION_TIMEOUT (R258): 2.5 ms. -/
def execGenerationTimeout (s : State) : Host.Outcome State Fault Refusal :=
  .next (inRun s fun s =>
    if s.ez.standby && decide (s.ez.genAt + 4000000 ≤ s.now) then s.becomeStroke s.rtick else s)

/-- A value of EZ_STROKE that the root refuses (R257). -/
def State.strokeBad (s : State) (v : Word32) : Bool :=
  !bit s.ez.members (strokeId v) || (standbyEn v && (!bit s.ez.members (standbyId v) || standbyId v = strokeId v))

/-- EZ_STROKE_WRITE (R257, R259, R265): a new stroke is a granted stroke change, at the instant of the write, which names no standby;
another value is copied to every member. -/
def execEzStrokeWrite (v : Word32) (s : State) : Host.Outcome State Fault Refusal :=
  .next (whenReady s fun s =>
    let v := v &&& 0xBF3F
    if !s.isTop || s.strokeBad v then s.ezRefuse
    else if strokeId v = strokeId s.ez.strokeReg then (s.sendAll s.otherIds (.strokeCopy v)).takeStroke v
    else if strokeId v = s.ez.id.toNat then s.becomeStroke s.rtick
    else
      let t := s.rtick
      (s.sendTo (strokeId v) (.strokeGrant t)).strokeIs (BitVec.ofNat 6 (strokeId v)) t)

/-- EASYALL_RAISE (R261). -/
def execEasyallRaise (s : State) : Host.Outcome State Fault Refusal :=
  .next (whenReady s fun s => s.raiseEasyAll 1 0)

/-- EASYALL_CLEAR (R262): on the root alone. -/
def execEasyallClear (s : State) : Host.Outcome State Fault Refusal :=
  .next (whenReady s fun s =>
    if s.isTop then (s.flood none 0 s.rtick (eaPayload false eaClearKind 0)).clearEasyAll else s)

/-- EASYALL_N_LOW (R261, R262): the latched member drives the ball itself, and after a clear it is ignored for 1 us. -/
def execEasyallNLow (s : State) : Host.Outcome State Fault Refusal :=
  .next (inRun s fun s =>
    if s.ea.latched || s.ea.ignoreTo.isSome then s else s.raiseEasyAll 3 0)

/-- EASYALL_IGNORE_END (R262). -/
def execEasyallIgnoreEnd (low : Bool) (s : State) : Host.Outcome State Fault Refusal :=
  .next (inRun s fun s =>
    match s.ea.ignoreTo with
    | some t =>
      if s.now < t then s
      else
        let s := { s with ea := { s.ea with ignoreTo := none } }
        if low then s.raiseEasyAll 3 0 else s
    | none => s)

/-- EASYALL_N is driven low (R262). -/
def State.easyallLow (s : State) : Bool := s.ea.latched && bit s.ea.cfg 6

end Sys2Proof.Machine
end

