-- ==== Sys2Proof/Machine/BarWrite.lean ====
section
/-! DEFINITION. Writes to BAR0 registers (R7 to R9, R25), window by window. A register whose write has a row of its own is
written by that row's meaning. Remote apertures (R26, R269, R270). -/

namespace Sys2Proof.Machine

/-- The state that a meaning leaves. -/
def State.after (s : State) (f : State → Host.Outcome State Fault Refusal) : State :=
  match f s with
  | .next t => t
  | _ => s

/-- Word w of a 32·n-bit register replaced. -/
def setWord {n : Nat} (r : BitVec n) (w : Nat) (v : Word32) : BitVec n := setFld r (32 * w) v

/-- A write of an MSI-X table dword (R267; PCIe Base 5.0, log entry 8): clearing a mask sends a pending vector. -/
def State.writeMsix (s : State) (i : Nat) (v : Word32) : State :=
  let x : Word32 := if i % 4 = 0 then v &&& ~~~3 else if i % 4 = 3 then v &&& 1 else v
  let s := { s with host := { s.host with msix := SMap.put s.host.msix i x } }
  let n := i / 4
  if i % 4 = 3 && x = 0 && bit s.host.msixPend n then
    { s with host := { s.host with msixPend := setBit s.host.msixPend n false } }.send (.msix n)
  else s

/-- A write of GBL_APn_SEL (R296, R324): EN = 1 is ignored for an ID outside APERTURE_MEMBERS, or when no context holds
APERTURE. -/
def State.writeApSel (s : State) (n : Nat) (v : Word32) : State :=
  if bit v 8 && !(bit s.apertureMembers (fldN v 0 6) && (List.range 16).any fun c => bit (s.entryRec c).perms 9) then s
  else { s with host := { s.host with apSel := SMap.put s.host.apSel n (v &&& 0x13F) } }

/-- GBL_AP_SEL_WRITE (R269, R296, R324). In recovery the register does not work (R322). -/
def execGblApSelWrite (n : Fin 8) (v : Word32) (s : State) : Host.Outcome State Fault Refusal :=
  .next (inRun s fun s => if s.bh.recovery then s else s.writeApSel n.val v)

/-- A write to the GBL_ window (R267, R296); in recovery its registers do not work (R322). -/
def State.writeGbl (s : State) (off : Nat) (v : Word32) : State :=
  if s.bh.recovery then s
  else if off = 0xC then s.after (execGblCtrlDevReset v)
  else
    match arrAt 0x20 4 8 off, arrAt 0x1000 4 64 off, arrAt 0x8000 4 1024 off with
    | some (n, _), _, _ => s.writeApSel n v
    | _, some (n, _), _ => s.after (execGblLockWrite (Fin.ofNat 64 n) v)
    | _, _, some (i, _) => s.writeMsix i v
    | _, _, _ => s

/-- A queue base (R272, R297): it is kept while the queue is enabled, and its low 6 bits read zero. -/
def baseHalf (en : Bool) (r : Word64) (hi : Bool) (v : Word32) : Word64 :=
  if en then r else setHalf r hi v &&& ~~~(0x3F : Word64)

/-- A write to the HQ_ window (R297). -/
def State.writeHq (s : State) (off : Nat) (v : Word32) : State :=
  let c := off / 0x1000
  let o := off % 0x1000
  match arrAt 0x100 0x40 16 o with
  | some (i, a) =>
    let q : QueueId := Fin.ofNat 256 (16 * c + i)
    match a with
    | 0x00 => s.updQp q.val fun r => { r with sqBase := baseHalf r.sqEn r.sqBase false v }
    | 0x04 => s.updQp q.val fun r => { r with sqBase := baseHalf r.sqEn r.sqBase true v }
    | 0x08 => s.after (execHqSqCfgWrite q v)
    | 0x0C => s.after (execHqSqTailWrite q v)
    | 0x18 => if bit v 0 then s.after (execHqSqRestart q) else s
    | 0x20 => s.updQp q.val fun r => { r with cqBase := baseHalf r.cqEn r.cqBase false v }
    | 0x24 => s.updQp q.val fun r => { r with cqBase := baseHalf r.cqEn r.cqBase true v }
    | 0x28 => s.after (execHqCqCfgWrite q v)
    | 0x2C => s.after (execHqCqHeadWrite q v)
    | _ => s
  | none => if o = 4 && bit v 0 then s.after (execHqCtxReset (Fin.ofNat 16 c)) else s

/-- A 32-bit write to one half of a 64-bit set or clear register: the other half's bits are 0. -/
def halfMask (hi : Bool) (v : Word32) : Word64 := if hi then place 64 32 v else place 64 0 v

/-- A write to the COX_ window (R107, R137). -/
def State.writeCox (s : State) (off : Nat) (v : Word32) : State :=
  let e : EngineId := Fin.ofNat 128 (off / 0x1000)
  let o := off % 0x1000
  match arrAt 0x100 4 48 o, arrAt 0x200 4 32 o, arrAt 0x300 4 16 o, arrAt 0x400 4 256 o with
  | some (i, _), _, _, _ => s.after (execPatternConfigWrite e (.scr (Fin.ofNat 48 i)) v)
  | _, some (w, _), _, _ => s.after (execPatternConfigWrite e (.sym (Fin.ofNat 32 w)) v)
  | _, _, some (b, _), _ => s.after (execCoxBindWrite e (Fin.ofNat 16 b) v)
  | _, _, _, some (c, _) => s.after (execPatternConfigWrite e (.pinmap (Fin.ofNat 256 c)) v)
  | _, _, _, _ =>
    match o with
    | 0x008 => if bit v 0 then s.after (execCoxCtrlReset e v) else s
    | 0x00C => s.after (execCoxCfgWrite e v)
    | 0x068 => s.after (execCoxDflagsSet e (halfMask false v))
    | 0x06C => s.after (execCoxDflagsSet e (halfMask true v))
    | 0x070 => s.after (execCoxDflagsClr e (halfMask false v))
    | 0x074 => s.after (execCoxDflagsClr e (halfMask true v))
    | 0x078 => s.after (execCoxRflagsSet e v)
    | 0x07C => s.after (execCoxRflagsClr e v)
    | 0x080 => s.after (execCoxTblSelWrite e v)
    | 0x0A0 => s.after (execPatternConfigWrite e .apgCfg v)
    | 0x0A8 => s.updEng e.val fun r => { r with pdIgnored := w1cB r.pdIgnored (bit v 0), pdRefused := w1cB r.pdRefused (bit v 1) }
    | 0x0E8 => s.after (execPatternConfigWrite e (.topo false) v)
    | 0x0EC => s.after (execPatternConfigWrite e (.topo true) v)
    | _ => s

/-- A write of the staged half of the register at an offset of a channel's register map (R52). -/
def State.writeStaged (s : State) (c : Nat) (map : List (Nat × Nat)) (a : Nat) (v : Word32) : State :=
  match map.find? fun x => x.1 = a with
  | some x => s.updChan c fun r => { r with staged := r.staged.setVal x.2 (fld v 0 16 &&& feMask x.2) }
  | none => s

/-- A write to the LN_ window (R51, R79, R368). -/
def State.writeLane (s : State) (off : Nat) (v : Word32) : State :=
  let l : LaneId := Fin.ofNat 16 (off / 0x10000)
  let o := off % 0x10000
  match arrAt 0x1000 0x100 16 o, arrAt 0x2000 0x100 16 o with
  | some (j, a), _ => s.writeStaged (16 * l.val + j) chanRegs a v
  | _, some (j, a) => s.writeStaged (16 * l.val + j) pmuRegs a v
  | _, _ =>
    match o with
    | 0x0010 => s.after (execLnLvlCommit l v)
    | 0x0020 => s.after (execAdcStart l v)
    | 0x0030 => s.after (execLnEvtStatusClear l v)
    | 0x0048 => s.updLane l.val fun r => { r with derSeen := w1cB r.derSeen (bit v 3) || r.derated }
    | 0x4000 => s.after (execLnTsrSelWrite l v)
    | 0x4080 => s.after (execLnActCtrlWrite l v)
    | 0x4090 => s.after (execLnTapSelWrite l v)
    | _ => s

/-- A write to the TIM_ window (R191, R192). -/
def State.writeTim (s : State) (off : Nat) (v : Word32) : State :=
  match arrAt 0 0x100 32 off with
  | some (n, a) =>
    let u : TimId := Fin.ofNat 32 n
    match a with
    | 0x00 => if bit v 1 then s.after (execTimDisarm u) else if bit v 0 then s.after (execTimArm u) else s
    | 0x04 => s.after (execTimConfigWrite u .cfg v)
    | 0x08 => s.after (execTimConfigWrite u .sel v)
    | 0x0C => s.after (execTimConfigWrite u .count v)
    | 0x10 => s.after (execTimConfigWrite u (.timeout false) v)
    | 0x14 => s.after (execTimConfigWrite u (.timeout true) v)
    | 0x18 => s.after (execTimConfigWrite u .ofs v)
    | 0x1C => s.updTim n fun t => { t with ignored := w1cB t.ignored (bit v 2), refused := w1cB t.refused (bit v 3) }
    | _ => s
  | none => if off = 0x8000 then { s with ref := { s.ref with latch := w1cB s.ref.latch (bit v 4) } } else s

/-- A write to a trigger group's register (R216). -/
def State.writeGroup (s : State) (g : GroupId) (a : Nat) (v : Word32) : State :=
  match a with
  | 0x00 => s.after (execTrgGrpCfgWrite g .cfg v)
  | 0x04 => s.after (execTrgGrpCfgWrite g .win v)
  | 0x08 => s.after (execTrgGrpCfgWrite g .tims v)
  | 0x0C => if bit v 1 then s.after (execTrgGrpDisarm g) else if bit v 0 then s.after (execTrgGrpArm g) else s
  | 0x10 => s.after (execTrgGrpCfgWrite g (.eng 0) v)
  | 0x14 => s.after (execTrgGrpCfgWrite g (.eng 1) v)
  | 0x18 => s.after (execTrgGrpCfgWrite g (.eng 2) v)
  | 0x1C => s.after (execTrgGrpCfgWrite g (.eng 3) v)
  | 0x20 => s.updGroup g.val fun r => { r with earlyArm := w1cB r.earlyArm (bit v 2) }
  | _ => s

/-- A configuration register of an acquisition unit with a value its field table refuses (R216). -/
def acqRegBad (a : Nat) (v : Word32) : Bool :=
  match a with
  | 0x00 => !acqCfgOk v
  | 0x04 => !acqPreOk v
  | 0x08 => !acqPostOk v
  | 0x0C => !acqCountOk v
  | _ => false

/-- A configuration register of an acquisition unit written (R216). -/
def Acq.writeReg (x : Acq) (a : Nat) (v : Word32) : Acq :=
  match a with
  | 0x00 => { x with cfg := v &&& acqCfgMask }
  | 0x04 => { x with pre := v &&& 0x1FFFFFF }
  | 0x08 => { x with post := v &&& 0x1FFFFFF }
  | 0x0C => { x with count := v &&& 0x1FFFFFF }
  | 0x10 => { x with region := v }
  | 0x14 => { x with level := v }
  | 0x18 => { x with hyst := v }
  | _ => x

/-- A write to an acquisition unit's register (R205, R216): STOP wins. -/
def State.writeAcq (s : State) (k : GroupId) (a : Nat) (v : Word32) : State :=
  if a = 0x1C then
    if bit v 2 then s.after (execAcqStop k)
    else
      let s := if bit v 0 then s.after (execAcqArm k) else s
      if bit v 1 then s.after (execAcqStart k) else s
  else if 0x20 < a || a % 4 ≠ 0 then s
  else if (s.acq k.val).st ≠ .idle then { s with trg := { s.trg with ignored := true } }
  else if acqRegBad a v then { s with trg := { s.trg with refused := true } }
  else s.updAcq k.val fun x => x.writeReg a v

/-- A write to the TRG_ window (R216). -/
def State.writeTrg (s : State) (off : Nat) (v : Word32) : State :=
  match arrAt 0x1000 0x40 16 off, arrAt 0x2000 0x40 16 off with
  | some (g, a), _ => s.writeGroup (Fin.ofNat 16 g) a v
  | _, some (k, a) => s.writeAcq (Fin.ofNat 16 k) a v
  | _, _ =>
    match off with
    | 0x00 => { s with trg := { s.trg with
        ignored := w1cB s.trg.ignored (bit v 0)
        refused := w1cB s.trg.refused (bit v 1)
        mismatch := w1cB s.trg.mismatch (bit v 2) } }
    | 0x10 => s.after (execTrgOutCfgWrite v)
    | _ => s

/-- A write to the LOG_ window (R217). -/
def State.writeLog (s : State) (off : Nat) (v : Word32) : State :=
  match off with
  | 0x00 => { s with log := { s.log with cfg := v &&& 0x01FF1FFF } }
  | 0x04 => { s with log := { s.log with swap := v &&& 0xFFFF0FFF } }
  | 0x08 => { s with log := { s.log with kindEn := v &&& 0xFF } }
  | 0x20 => { s with log := { s.log with levelIrq := w1cB s.log.levelIrq (bit v 0), lost := w1cB s.log.lost (bit v 1) } }
  | _ => s

/-- A write to an Umpire source's register (R304, R309, R311): a clear acts before a force of the same write. -/
def State.writeSrc (s : State) (n : SourceId) (a : Nat) (v : Word32) : State :=
  match a with
  | 0x00 => s.after (execUmpSrcConfigWrite n .cfg v)
  | 0x04 => s.after (execUmpSrcConfigWrite n .win v)
  | 0x08 => s.after (execUmpSrcConfigWrite n .timer v)
  | 0x10 =>
    let s := if bit v 0 then s.after (execUmpSrcClear n) else s
    if bit v 1 then s.after (execUmpSrcForce n) else s
  | _ => s

/-- A write to the UMP_ window (R311). -/
def State.writeUmp (s : State) (off : Nat) (v : Word32) : State :=
  match arrAt 0x20 4 4 off, arrAt 0x1000 0x20 96 off with
  | some (w, _), _ => { s with ump := { s.ump with halt := setWord s.ump.halt w v } }
  | _, some (n, a) => s.writeSrc (Fin.ofNat 96 n) a v
  | _, _ =>
    match off with
    | 0x00 => { s with ump := { s.ump with
        ignored := w1cB s.ump.ignored (bit v 1)
        refused := w1cB s.ump.refused (bit v 2)
        histOvf := w1cB s.ump.histOvf (bit v 3)
        ovf0 := w1cB s.ump.ovf0 (bit v 3)
        ovfSeen := if bit v 3 && s.ump.cyc = s.ckC then s.ump.fresh.length else s.ump.ovfSeen } }
    | 0x04 => { s with ump := { s.ump with irq := v &&& 0x3FF } }
    | 0x08 => { s with ump := { s.ump with forceDetail := v } }
    | 0x0C => s.after (execUmpWireInj v)
    | _ => s

/-- A write to the CAL_ window (R237). -/
def State.writeCal (s : State) (off : Nat) (v : Word32) : State :=
  match off with
  | 0x00 => { s with cal := { s.cal with en := bit v 0 } }
  | 0x04 => s.after (execCalDtWrite v)
  | 0x08 => { s with cal := { s.cal with refused := w1cB s.cal.refused (bit v 24) } }
  | 0x0C => s.after (execCalReq v)
  | _ => s

/-- A write of EZ_CATCH_TOL (R265). -/
def State.writeTol (s : State) (v : Word32) : State :=
  if 4 ≤ fldN v 0 8 then { s with ez := { s.ez with tol := fld v 0 8 } } else s.ezRefuse

/-- A write to the EZ_ window (R265). Several bits of one write of EZ_CTRL act in bit order. -/
def State.writeEz (s : State) (off : Nat) (v : Word32) : State :=
  match off with
  | 0x04 =>
    let s := if bit v 0 then s.after execEzCtrlEnum else s
    let s := if bit v 1 then s.after execEzCtrlSurvey else s
    if bit v 2 then s.after execEzCtrlTakeover else s
  | 0x08 => { s with ez := { s.ez with
      surveyFail := w1cB s.ez.surveyFail (bit v 8)
      lateEvent := w1cB s.ez.lateEvent (bit v 9)
      refused := w1cB s.ez.refused (bit v 10)
      apLost := w1cB s.ez.apLost (bit v 11)
      catchDrift := w1cB s.ez.catchDrift (bit v 12) } }
  | 0x0C => s.after (execEzStrokeWrite v)
  | 0x24 => s.writeTol v
  | 0x30 =>
    if bit v 16 then s.after (execEzRoleGo v)
    else { s with ez := { s.ez with role := v &&& 0x3F0F } }
  | 0x40 => { s with ea := { s.ea with cfg := v &&& 0xFF } }
  | 0x44 => if bit v 0 then s.after execEasyallRaise else if bit v 1 then s.after execEasyallClear else s
  | _ => s

/-- A write to the FC_ window (R171). -/
def State.writeFc (s : State) (off : Nat) (v : Word32) : State :=
  match arrAt 0x2000 0x200 16 off with
  | some (n, a) =>
    let g : GroupId := Fin.ofNat 16 n
    match arrAt 0x100 4 64 a with
    | some (w, _) => s.after (execFcGeomWrite g (.dbi (Fin.ofNat 64 w)) v)
    | none =>
      match a with
      | 0x00 => s.after (execFcGeomWrite g (.fields false) v)
      | 0x04 => s.after (execFcGeomWrite g (.fields true) v)
      | 0x08 => s.after (execFcGeomWrite g .cfg v)
      | _ => s
  | none =>
    match off with
    | 0x00 => { s with fc := { s.fc with
        ignored := w1cB s.fc.ignored (bit v 0)
        refused := w1cB s.fc.refused (bit v 1)
        drainRefused := w1cB s.fc.drainRefused (bit v 2) } }
    | 0x04 => s.after (execFcDrainReq v)
    | 0x0C => s.after (execFcCntClr v)
    | _ => s

/-- A write to the RS_ window (R351). -/
def State.writeRs (s : State) (off : Nat) (v : Word32) : State :=
  match arrAt 0x100 0x10 8 off with
  | some (n, a) =>
    match a with
    | 0x00 => s.after (execRsSnsThrWrite (Fin.ofNat 8 n) v)
    | 0x04 => s.updSn n fun r => { r with cfg := v &&& 0xFF }
    | 0x08 => s.updSn n fun r => { r with evt := w1c r.evt (fld v 4 4), rbErr := w1cB r.rbErr (bit v 8) }
    | _ => s
  | none =>
    match off with
    | 0x00 => { s with rs := { s.rs with refused := w1cB s.rs.refused (bit v 0) } }
    | 0x04 => { s with rs := { s.rs with irq := v &&& 0x1FF } }
    | 0x08 => s.after (execRsCheck v)
    | _ => s

/-- A write of BH_MBX_CTRL (R334): TYPE and LEN are written, and a GO while BUSY is ignored. GO takes the message as the mailbox
holds it (DEDUCED, log entry 49); one of an unknown TYPE completes BAD_COMMAND at once (R318). -/
def State.writeMbxCtrl (s : State) (v : Word32) : State :=
  let s := { s with bh := { s.bh with mbxType := fld v 0 16, mbxLen := fld v 16 13 } }
  if !bit v 31 || s.bh.mbxBusy then s
  else
    let s := { s with bh := { s.bh with mbxBusy := true, mbxJob := (s.bh.mbxType, s.mbxBody) } }
    if messageTypes.contains (fldN v 0 16) then s else s.mbxDone stBadCommand []

/-- A write to the BH_ window (R334). -/
def State.writeBh (s : State) (off : Nat) (v : Word32) : State :=
  match arrAt 0x1000 4 1024 off with
  | some (i, _) => { s with bh := { s.bh with mbxReq := Memory.writeN 0 s.bh.mbxReq (4 * i) (bytesLE 4 v.toNat) } }
  | none => if off = 0x10 then s.writeMbxCtrl v else s

/-- A write to the AON_ window (R352). -/
def State.writeAon (s : State) (off : Nat) (v : Word32) : State :=
  match off with
  | 0x00 => { s with power := { s.power with cause := w1c s.power.cause (v &&& 0xF0) } }
  | 0x04 => { s with power := { s.power with wakeEn := v &&& 0x00F0000F } }
  | _ => s

/-- A write to a BAR0 register below the apertures (R7, R25, R270): only the GBL_, BH_ and AON_ windows work before READY,
and an offset that holds no register changes nothing. -/
def State.regWrite (s : State) (off : Nat) (v : Word32) : State :=
  if s.dev.base = .stop || off % 4 ≠ 0 then s
  else if off < 0x10000 then s.writeGbl off v
  else if 0x380000 ≤ off && off < 0x390000 then s.writeBh (off - 0x380000) v
  else if 0x3F0000 ≤ off && off < 0x400000 then s.writeAon (off - 0x3F0000) v
  else if !s.dev.ready then s
  else if off < 0x20000 then s.writeHq (off - 0x10000) v
  else if 0x100000 ≤ off && off < 0x180000 then s.writeCox (off - 0x100000) v
  else if 0x200000 ≤ off && off < 0x300000 then s.writeLane (off - 0x200000) v
  else
    match off / 0x10000 with
    | 0x30 => s.writeTim (off - 0x300000) v
    | 0x31 => s.writeTrg (off - 0x310000) v
    | 0x32 => s.writeLog (off - 0x320000) v
    | 0x33 => s.writeUmp (off - 0x330000) v
    | 0x34 => s.writeCal (off - 0x340000) v
    | 0x35 => s.writeEz (off - 0x350000) v
    | 0x36 => s.writeFc (off - 0x360000) v
    | 0x37 => s.writeRs (off - 0x370000) v
    | _ => s

/-- The member that an enabled aperture names (R26, R269, R270): an enumerated ID, and whether it can be reached. -/
def State.apMember (s : State) (n : Nat) : Option (BitVec 6 × Bool) :=
  let r := s.apSel n
  let id : BitVec 6 := fld r 0 6
  if s.dev.ready && bit r 8 && (bit s.ez.members id.toNat || bit s.ez.all id.toNat) then
    some (id, bit s.ez.members id.toNat && (id = s.ez.id || (s.routePort id).isSome))
  else none

/-- A write through this aperture has reached the root and is not known to have been applied (R269). -/
def ApAcc.writesBy (n : Nat) (a : ApAcc) : Bool :=
  match a with
  | .write m _ => m = n
  | _ => false

/-- A read of this device itself, through an aperture (R269). -/
def State.apOwn (s : State) (offset : Nat) : State :=
  let (v, s) := s.regRead offset
  s.send (.readData [v])

/-- An access that waits may go on: none that it must follow is still before it (R269). -/
def ApAcc.ready (pre : List ApAcc) (a : ApAcc) : Bool :=
  match a with
  | .write .. => false
  | .read n _ v => v.isSome && !pre.any (ApAcc.writesBy n)
  | .own n _ => !pre.any (ApAcc.writesBy n)
  | .sqTail .. | .cqHead .. => !pre.any ApAcc.isWrite

/-- An access that has waited takes effect. -/
def State.apTake (s : State) (a : ApAcc) : State :=
  match a with
  | .write .. => s
  | .read _ _ v => s.send (.readData [v.getD 0])
  | .own _ o => s.apOwn o
  | .sqTail q v => s.sqTailWrite q v
  | .cqHead q v => s.cqHeadWrite q v

/-- The first access that may go on, and the others. -/
def firstReady : List ApAcc → List ApAcc → Option (ApAcc × List ApAcc)
  | _, [] => none
  | pre, a :: r => if a.ready pre then some (a, pre ++ r) else firstReady (pre ++ [a]) r

/-- The accesses that need wait no longer take effect, in order, at most n of them (R269). -/
def State.settleAp : Nat → State → State
  | 0, s => s
  | n + 1, s =>
    match firstReady [] s.host.ap with
    | some (a, l) => State.settleAp n (State.apTake { s with host := { s.host with ap := l } } a)
    | none => s

/-- The list of waiting accesses changes, and those that may go on do. -/
def State.apUpdate (s : State) (f : List ApAcc → List ApAcc) : State :=
  State.settleAp s.host.ap.length { s with host := { s.host with ap := f s.host.ap } }

/-- The member has applied the first write through aperture n that it was sent. -/
def State.apDone (s : State) (n : Nat) (id : BitVec 6) : State := s.apUpdate fun l => l.eraseP fun a => a = .write n id

/-- The member answers the first read through aperture n that it was sent. -/
def State.apAnswer (s : State) (n : Nat) (id : BitVec 6) (v : Word32) : State :=
  s.apUpdate fun l => updFirst (fun a => a = .read n id none) (fun _ => .read n id (some v)) l

/-- Accesses on their way to lost IDs (R248): reads return zero, and writes set AP_LOST. -/
def State.apLose (s : State) (ids : Word64) : State :=
  let gone (a : ApAcc) : Bool := match a with
    | .write _ id => bit ids id.toNat
    | _ => false
  let s := if s.host.ap.any gone then { s with ez := { s.ez with apLost := true } } else s
  s.apUpdate fun l => (l.filter fun a => !gone a).map fun a => match a with
    | .read n id none => .read n id (if bit ids id.toNat then some 0 else none)
    | a => a

/-- APERTURE_READ (R26, R248, R269, R270): it returns only after every earlier write through the same aperture has been applied;
another member sends the answer, and a read that is lost returns zero. -/
def execApertureRead (n : Fin 8) (offset : BitVec 22) (s : State) : Host.Outcome State Fault Refusal :=
  .next (inRun s fun s =>
    match s.apMember n.val with
    | some (id, true) =>
      if id = s.ez.id then
        if s.host.ap.any (ApAcc.writesBy n.val) then s.apWait (.own n.val offset.toNat) else s.apOwn offset.toNat
      else (s.apWait (.read n.val id none)).sendTo id.toNat (.apRead n.val offset.toNat)
    | _ => s.send (.readData [0]))

/-- The commands sent towards IDs that are lost complete ABORTED, in submission order (R248; log entry 42), the ABORTs of such
commands too. -/
def State.loseCmds (s : State) (ids : Word64) : State :=
  let hit (c : Cmd) : Bool := c.stage = .remote && bit ids c.source.toNat
  (s.orderCmds hit 1000).finishAll hit stAborted

/-- A write through aperture n (R26, R248, R269, R290): a host device reset of another member ends the commands in flight to
it. -/
def State.apWrite (s : State) (n off : Nat) (v : Word32) : State :=
  match s.apMember n with
  | none => s
  | some (id, true) =>
    if id = s.ez.id then s.regWrite off v
    else
      let s := (s.apWait (.write n id)).sendTo id.toNat (.apWrite n off v)
      if off = 0xC && bit v 0 && fldN v 16 16 = devResetKey then s.loseCmds (placeB 64 id.toNat true) else s
  | some (_, false) => { s with ez := { s.ez with apLost := true } }

/-- APERTURE_WRITE (R269). -/
def execApertureWrite (n : Fin 8) (offset : BitVec 22) (v : Word32) (s : State) : Host.Outcome State Fault Refusal :=
  .next (inRun s fun s => s.apWrite n.val offset.toNat v)

/-- REGISTER_WRITE (R8, R9, R25): any dword of BAR0, the apertures included. -/
def execRegisterWrite (offset : BitVec 26) (v : Word32) (s : State) : Host.Outcome State Fault Refusal :=
  .next (inRun s fun s =>
    let o := offset.toNat
    if 0x2000000 ≤ o then
      if o % 4 = 0 then s.apWrite ((o - 0x2000000) / 0x400000) ((o - 0x2000000) % 0x400000) v else s
    else if o < 0x400000 then s.regWrite o v
    else s)

end Sys2Proof.Machine
end

