-- ==== Sys2Proof/Machine/Links.lean ====
section
/-! DEFINITION. Erzal links: data flits as they arrive (R240, R248), and links that go DOWN and come UP (R239, R245, R248, R249,
R258). -/

namespace Sys2Proof.Machine

/-- A member of a coupled heat has answered; a later answer of it takes the place of the one before (R148, R189, R264). -/
def State.coupledAnswer (s : State) (c : BitVec 7) (src : BitVec 6) (st : Byte) (d : Word32) : State :=
  match s.couplingEngine c with
  | some e =>
    let t := s.updHeat e fun h => { h with answers := (src.toNat, st, d) :: h.answers.filter fun a => a.1 ≠ src.toNat }
    if (s.eng e).heat.any Heat.awaits then t.settleAnswers e
    else if (s.eng e).heat.any (·.asking) then t.settleResume e
    else s
  | none => s

/-- The lead withdraws an admission that has not launched (R148). -/
def State.coupledWithdraw (s : State) (c : BitVec 7) : State :=
  match s.couplingEngine c with
  | some e => if (s.eng e).heat.any Heat.awaits then s.withdraw e else s
  | none => s

/-- A member's heat has ended (R277). -/
def State.coupledEnd (s : State) (c : BitVec 7) (src : BitVec 6) (st : Byte) (sat : Bool) : State :=
  match s.couplingEngine c with
  | some e => s.updHeat e fun h => { h with peerEnds := h.peerEnds ++ [(src.toNat, st, sat)] }
  | none => s

/-- The lead has completed a coupled heat: the part of this member completes with the crew's status (R168, R277). -/
def State.coupledDone (s : State) (sq : QueueId) (cid : BitVec 16) (st : Byte) : State :=
  (s.enginesIn fun r => r.heat.any fun h => h.told && h.sq = sq && h.cid = cid).foldl (fun s e => s.heatDone e st) s

/-- Members that are lost end their part of a coupled heat ENGINE_FAULT for the lead, and a member that has lost its lead
completes its own part with the status it ended with (R249, R277; DEDUCED, log entry 141). -/
def State.loseEnds (s : State) (ids : Word64) : State :=
  let s := (s.enginesIn fun r => r.heat.any (fun h => h.told) && bit ids (s.leadId r)).foldl (fun s e =>
    match (s.eng e).heat.bind (·.ended) with
    | some x => s.heatDone e x.status
    | none => s) s
  (s.enginesIn fun r => r.heat.any (fun h => h.launchAt.isSome) && s.isLead r).foldl (fun s e =>
    let l := (s.peers (s.eng e)).filter fun i => bit ids i
    s.updHeat e fun h => { h with
      peerEnds := h.peerEnds ++ (l.filter fun i => !h.peerEnds.any fun p => p.1 = i).map fun i => (i, stEngineFault, false) }) s

/-- An ABORT reaches a member of the crew (R105). -/
def State.coupledAbort (s : State) (c : BitVec 7) (t : Nat) : State :=
  match s.couplingEngine c with
  | some e => if (s.eng e).st = .held then s.abortHeat e else s.abortAt e t
  | none => s

/-- A completion reaches the root: the command is decided, unless it was completed before (R248, R284). -/
def State.remoteDone (s : State) (sq : QueueId) (cid : BitVec 16) (st : Byte) (d : Word32) (r0 r1 : Word64)
    (part fcsat : Bool) : State :=
  s.updCmd sq cid fun c => if c.stage = .remote then { c.decide st d r0 r1 with part := part, fcsat := fcsat } else c

/-- A command that the root has sent here (R248, R284) waits for its row. The root's record judges it (R324). -/
def State.takeCommand (s : State) (sq : QueueId) (e : BitVec 512) (rec : EntryRec) : State :=
  s.addCmdAs { Cmd.fresh sq (fld e 32 16) (fld e 0 8) (fld e 16 6) s.host.fetchSeq .started with
    raw := some e
    engine := if fldN e 0 8 = 1 then some (fldN e 128 7) else none } rec

/-- The root ends a command that it has sent here (R287). -/
def State.dropCommand (s : State) (sq : QueueId) (cid : BitVec 16) : State :=
  match s.cmd? sq cid, s.xferOf sq cid with
  | some c, _ => s.resetHere c
  | none, some (c, x) => s.stopXfer c x
  | none, none => s

/-- The coupled crews with a member among the IDs that are lost fault (R249). -/
def State.loseIds (s : State) (ids : Word64) : State :=
  (s.enginesIn fun r => r.active && (s.peers r).any fun i => bit ids i).foldl
    (fun s e => s.peerFault e (s.rtick + 384)) s

/-- IDs can be reached no longer (R248, R249, R258): commands and aperture accesses on their way there end, on the connected side the
coupled crews with a member among them fault, and the standby takes over from a stroke among them. -/
def State.lose (s : State) (ids : Word64) (connected : Bool) : State :=
  let s := { s with ez := { s.ez with members := s.ez.members &&& ~~~ids } }
  let s := (s.loseCmds ids).apLose ids
  let s := (if connected then s.loseIds ids else s).loseEnds ids
  if s.ez.standby && bit ids (strokeId s.ez.strokeReg) then s.becomeStroke s.rtick else s

/-- A data flit for this device is consumed (R240). -/
def State.consume (s : State) (src : BitVec 6) (pl : DataPayload) : State :=
  match pl with
  | .completion sq cid st d r0 r1 part sat => s.remoteDone sq cid st d r0 r1 part sat
  | .command sq e rec => s.takeCommand sq e rec
  | .abortCmd sq cid => s.dropCommand sq cid
  | .apWrite n o v => (s.regWrite o v).sendTo src.toNat (.apDone n)
  | .apRead n o =>
    let (v, s) := s.regRead o
    s.sendTo src.toNat (.apData n v)
  | .apDone n => s.apDone n src
  | .apData n v => s.apAnswer n src v
  | .frameLoad f y => s.nameFrame f.toNat y
  | .generation f co v => if s.ez.standby then { s with ez := { s.ez with genPend := some (f, co, v) } } else s
  | .genCommit n crc => s.keepGeneration n crc
  | .strokeCopy v => s.takeStroke v
  | .strokeGrant t => if s.ez.stroke then s else s.becomeStroke t
  | .surveyAsk => if s.isTop then s.startSurveys else s
  | .surveyStart => s.startSurvey
  | .ttAsk =>
    match s.portTo 1 src.toNat with
    | some p => s.sendTo src.toNat (.ttReport (s.port p).tt)
    | none => s
  | .ttReport l =>
    match s.portTo 2 src.toNat with
    | some p => if s.ez.surveyBusy && !(s.port p).ttOver then s.linkResult p l else s
    | none => s
  | .ttResult d theta =>
    match s.portTo 1 src.toNat with
    | some p => s.hopResult p d theta
    | none => s
  | .linkTheta c t => s.noteLink c t
  | .skewTarget t => { s with ez := { s.ez with svResult := some t } }
  | .lost ids con => s.lose ids con
  | .reach ids => { s with ez := { s.ez with members := ids } }
  | .reparent c p => s.reparent c.toNat p.toNat
  | .heats on => { s with ez := { s.ez with heatIds := setBit s.ez.heatIds src.toNat on } }
  | .coupledJoin c on => s.noteJoin c src on
  | .coupledAdmit c sq cid start d rec => s.memberAdmit c sq cid start d src.toNat rec
  | .coupledAnswer c i st d => s.coupledAnswer c i st d
  | .coupledWithdraw c => s.coupledWithdraw c
  | .coupledEnd c i st sat => s.coupledEnd c i st sat
  | .coupledDone sq cid st => s.coupledDone sq cid st
  | .coupledResume c i => s.memberResume c i.toNat
  | .coupledAbort c t => s.coupledAbort c t
  | .freeClaims c => s.freeClaims c.toNat
  | .other => s

/-- A flit in order is acknowledged, and consumed or sent on (R240, R248). The flits that wait for room on the next link are as many as
come (DESIGN CHOICE, log entry 143). -/
def State.takeFlit (s : State) (p : Nat) (v : BitVec 512) (pl : DataPayload) : State :=
  let s := (s.linkEvent p false (flitSeq v)).updPort p fun r => { r with rxSeq := r.rxSeq + 1 }
  if flitDest v = s.ez.id then s.consume (flitSrc v) pl else s.forward (flitDest v) [v]

/-- EZ_DATA_FLIT (R240, R246, R248): a bad flit is counted and rejected, one received before is acknowledged again, and one out of
order is rejected. A CROSS link carries none. -/
def execEzDataFlit (p : PortId) (flit : BitVec 512) (pl : DataPayload) (s : State) : Host.Outcome State Fault Refusal :=
  .next (inRun s fun s =>
    let r := s.port p.val
    if !r.up || r.role = 3 then s
    else if !flitGood flit then
      (s.updPort p.val fun r => { r with crc := satInc r.crc }).linkEvent p.val true r.rxSeq
    else if flitSeq flit = r.rxSeq then s.takeFlit p.val flit pl
    else if (r.rxSeq - flitSeq flit).toNat ≤ 2048 then s.linkEvent p.val false (flitSeq flit)
    else s.linkEvent p.val true r.rxSeq)

/-- The IDs that this device reaches without its upstream link: itself and its subtree over the links that are UP. -/
def State.ownSide (s : State) : Word64 :=
  (s.portsOf 2).foldl (fun m p => m ||| (s.port p).route) (placeB 64 s.ez.id.toNat true)

/-- IDs are lost here, and every member that is still reached hears of it (R248, R249). -/
def State.tellLost (s : State) (ids : Word64) (connected : Bool) : State :=
  let s := s.lose ids connected
  s.sendAll s.otherIds (.lost ids connected)

/-- A link goes DOWN and retrains (R245, R248, R249, R258). -/
def State.linkDown (s : State) (p : Nat) : State :=
  let r := s.port p
  if !r.up then s
  else
    let s := s.setPort p { r with
      st := 1
      width := 0
      unacked := []
      waiting := []
      evts := []
      replays := 0
      down := satInc r.down
      downAt := s.now }
    let s := s.umpEvent (50 + p) (portDetail true 0)
    if r.role = 2 then s.tellLost (s.ez.members &&& r.route) true
    else if r.role = 1 then s.tellLost (s.ez.members &&& ~~~s.ownSide) false
    else s

/-- EZ_LINK_DOWN (R245). -/
def execEzLinkDown (p : PortId) (s : State) : Host.Outcome State Fault Refusal :=
  .next (inRun s fun s => s.linkDown p.val)

/-- EZ_LINK_TRAINED (R239, R248, R265): training yields 1, 2, 4 or 8 lanes. The IDs below a downstream link are reached again, and the
members hear of it. -/
def execEzLinkTrained (p : PortId) (lanes : Fin 4) (farId : BitVec 6) (farPort : BitVec 3) (s : State) :
    Host.Outcome State Fault Refusal :=
  .next (inRun s fun s =>
    let r := s.port p.val
    if r.up then s
    else
      let s := s.setPort p.val { r with
        st := if r.st = 3 then 3 else 2
        width := BitVec.ofNat 4 (2 ^ lanes.val)
        farId := farId
        farPort := farPort
        txSeq := 0
        rxSeq := 0
        unacked := []
        waiting := []
        evts := []
        replays := 0 }
      if r.role = 2 && r.st ≠ 3 then
        let m := s.ez.members ||| (r.route &&& s.ez.all)
        let s := { s with ez := { s.ez with members := m } }
        s.sendAll s.otherIds (.reach m)
      else if r.role = 1 then { s with ez := { s.ez with orphan := false } }
      else s)

/-- ORPHAN (R249). -/
def execOrphan (s : State) : Host.Outcome State Fault Refusal :=
  .next (inRun s fun s =>
    let lost := (List.range 5).any fun p =>
      (s.port p).role = 1 && !(s.port p).up && decide ((s.port p).downAt + usTicks ≤ s.now)
    if !lost || s.ez.orphan then s
    else
      let s := { s with ez := { s.ez with orphan := true } }
      if bit s.ea.cfg 7 then s.raiseEasyAll 4 0 else s)

end Sys2Proof.Machine
end

