-- ==== Sys2Proof/Machine/Regions.lean ====
section
/-! DEFINITION. The region commands (R108, R109, R116, R143, R205, R268, R324, R373) and BAR2 (R268). -/

namespace Sys2Proof.Machine

/-- The kind of a code (R108). -/
def kindOf (k : Byte) : RegionKind := if k = 0 then .vector else if k = 1 then .capture else .shared

/-- The refusals of R373, with a KIND that R108 does not define. -/
def allocOk (kind m : Byte) (size : Word64) (mask : ChanMask) : Bool :=
  let n := size.toNat
  kind.toNat ≤ 2 && (match kindOf kind with
    | .vector => m.toNat ≤ 3 && 8 ≤ n && n ≤ 2 ^ 24 && mask ≠ 0
    | .capture => n ≠ 0 && n % 4096 = 0 && n ≤ capTotal && m = 0 && mask = 0
    | .shared => n ≠ 0 && m = 0 && mask = 0)

/-- What R324 asks of a REGION_ALLOC; a KIND that R108 does not define has no permission of its own. -/
def allocRec (kind map_ : Byte) : EntryRec → Bool := fun r =>
  (2 < kind.toNat || bit r.perms (2 + kind.toNat)) && (map_ ≠ 1 || bit r.perms 5)

/-- Bytes of a region's slice in lane k (R109). -/
def Region.laneBytes (r : Region) (k : Nat) : Nat :=
  match r.slices.find? fun x => x.1 = k with
  | some x => r.size * granBytes x.2
  | none => 0

/-- Bytes of a VECTOR region over all lanes, of another region its size (R324). -/
def Region.bytes (r : Region) : Nat :=
  if r.kind = .vector then r.slices.foldl (fun a x => a + r.size * granBytes x.2) 0 else r.size

/-- Capacity of a lane's vector channel (R19). -/
def vecChannelBytes : Nat := 2250000000

/-- The live regions. -/
def State.liveRegions (s : State) : List (Nat × Region) := s.regions.filter fun r => r.2.live

/-- The slices fit in every lane's vector channel (R109). -/
def State.slicesFit (s : State) (r : Region) : Bool :=
  (List.range 16).all fun k =>
    decide ((s.liveRegions.filter fun x => x.2.kind = .vector).foldl (fun a x => a + x.2.laneBytes k) 0 + r.laneBytes k
      ≤ vecChannelBytes) || r.laneBytes k = 0

/-- The quota of a kind (R323). -/
def quotaOf (r : EntryRec) (k : RegionKind) : Nat :=
  match k with
  | .vector => r.vectorQuota
  | .capture => r.captureQuota
  | .shared => r.sharedQuota

/-- The context's regions of a kind stay within its quota (R324). -/
def State.quotaOk (s : State) (x : EntryRec) (r : Region) : Bool :=
  decide ((s.liveRegions.filter fun x => x.2.kind = r.kind && x.2.owner = r.owner).foldl (fun a x => a + x.2.bytes) 0 + r.bytes
    ≤ quotaOf x r.kind)

/-- The region fits in the memory of its kind (R109, R324, R373). CAPTURE regions take no memory when allocated. -/
def State.allocFits (s : State) (x : EntryRec) (r : Region) : Bool :=
  s.quotaOk x r &&
  (match r.kind with
    | .vector => s.slicesFit r
    | .shared => decide (r.size ≤ s.host.sharedFree)
    | .capture => true)

/-- BAR2: 64 GiB in units of 2 MiB (R266, R268). -/
def bar2Unit : Nat := 2097152
def bar2Units : Nat := 32768

/-- The units a mapped region takes. -/
def Region.span (r : Region) : Option (Nat × Nat) := r.map.map fun o => (o / bar2Unit, ceilDiv r.size bar2Unit)

/-- Units [a, a + n) are free. -/
def State.bar2Free (s : State) (a n : Nat) : Bool :=
  decide (a + n ≤ bar2Units) &&
  s.liveRegions.all fun r => match r.2.span with
    | none => true
    | some (b, m) => decide (a + n ≤ b) || decide (b + m ≤ a)

/-- Where a mapping of n units may start: the device's proposal where it is free, otherwise the lowest free start. Free
starts worth trying are 0 and the ends of the mappings there are (log entry 11). -/
def State.bar2Start (s : State) (n : Nat) : Option Nat :=
  let prop := Config.bar2Slot s.freeCount
  if s.bar2Free prop n then some prop
  else
    let ends := s.liveRegions.filterMap fun r => r.2.span.map fun x => x.1 + x.2
    (0 :: ends).foldl (fun (m : Option Nat) a =>
      if s.bar2Free a n then some (min a (m.getD a)) else m) none

/-- Whether an index of the handle space is taken. -/
def State.regionUsed (s : State) (i : Nat) : Bool := (s.region i).live

/-- The region a REGION_ALLOC makes. -/
def newRegion (ctx : Nat) (kind m : Byte) (size : Word64) (mask : ChanMask) : Region :=
  { Region.reset with
    live := true
    kind := kindOf kind
    owner := ctx
    mask := mask
    mcode := fld m 0 2
    size := size.toNat }

/-- REGION_ALLOC (R108, R109, R268, R324, R373). Of the fields R373 judges only MAP's width is judged before (R276). -/
def execRegionAlloc (h : Hdr) (kind map_ m : Byte) (size : Word64) (mask : ChanMask) (s : State) :
    Host.Outcome State Fault Refusal :=
  .next (queueCmd s h 0x18 [(128, kind.toNat), (136, map_.toNat), (144, m.toNat), (192, size.toNat), (256, mask.toNat)]
      (map_.toNat ≤ 1) (allocRec kind map_) false fun s =>
    let r := newRegion (ctxOfQueue h.sq) kind m size mask
    if !allocOk kind m size mask then s.done h stBadCommand
    else if map_ = 1 && (s.ez.id ≠ 0 || r.kind = .vector) then s.done h stBadCommand
    else
      let at_ : Option Nat := if map_ = 1 then s.bar2Start (ceilDiv r.size bar2Unit) else some 0
      match at_ with
      | none => s.done h stBadCommand
      | some a =>
        if !s.allocFits (s.recOf h) r then s.done h stRefusedCapacity
        else
          match pickIndex (Config.handleIndex s.freeCount).toNat s.regions.length s.regionUsed with
          | none => s.done h stRefusedCapacity
          | some i =>
            if 2 ^ 20 ≤ i then s.done h stRefusedCapacity
            else
              let g := (s.region i).gen
              let s := { s with freeCount := s.freeCount + 1 }
              let s := s.setRegion i { r with gen := g, map := if map_ = 1 then some (a * bar2Unit) else none }
              let s := if r.kind = .shared then
                { s with host := { s.host with sharedFree := s.host.sharedFree - r.size } } else s
              s.done h stOk 0 ((handleOf i g).setWidth 64)
                (if map_ = 1 then BitVec.ofNat 64 (a * bar2Unit) else BitVec.allOnes 64))

/-- The region may not be freed now (R116, R143, R205). -/
def State.regionBusy (s : State) (hd : Word32) : Bool :=
  let r := s.region (handleIdx hd)
  (s.anyEngine fun e => e.active && e.bound.any fun b => b.2 = hd) ||
  (r.kind = .capture && (r.win = .capturing || r.win = .draining || (r.win = .filled && r.drainPending))) ||
  (List.range 16).any fun k => (s.acq k).st ≠ .idle && (s.acq k).region = hd

/-- REGION_FREE (R116, R143, R147, R205, R298): the handle becomes stale at once; backed capture memory is zeroed before it is
free again. NOT_OWNER is judged before SEG_ACTIVE (DESIGN CHOICE, log entry 72). -/
def execRegionFree (h : Hdr) (handle : Word32) (s : State) : Host.Outcome State Fault Refusal :=
  .next (queueCmd s h 0x19 [(128, handle.toNat)] true anyRec false fun s =>
    let i := handleIdx handle
    let r := s.region i
    if !s.liveRegion handle then (s.softFault h 0x19 stStaleHandle).done h stStaleHandle
    else if r.owner ≠ ctxOfQueue h.sq then (s.softFault h 0x19 stNotOwner).done h stNotOwner
    else if s.regionBusy handle then s.done h stSegActive
    else
      let s := s.setRegion i { Region.reset with gen := nextGen r.gen }
      let s := match r.kind with
        | .shared => { s with host := { s.host with sharedFree := s.host.sharedFree + r.size } }
        | .capture =>
          if r.win = WinState.unbacked then s else { s with fc := { s.fc with zeroing := s.fc.zeroing ++ [(handle, r.size)] } }
        | .vector => s
      s.done h stOk)

/-- REGION_ZEROING_DONE (R143, R147). -/
def execRegionZeroingDone (handle : Word32) (s : State) : Host.Outcome State Fault Refusal :=
  .next (inRun s fun s => { s with fc := { s.fc with zeroing := s.fc.zeroing.filter fun z => z.1 ≠ handle } })

/-- The common checks of REGION_READ and REGION_WRITE (R277). -/
def State.rwCheck (s : State) (hd : Word32) (ctx : Nat) (offset length : Word64) : Byte :=
  let r := s.region (handleIdx hd)
  if !s.liveRegion hd then stStaleHandle
  else if r.owner ≠ ctx then stNotOwner
  else if r.kind = .vector || r.size < offset.toNat + length.toNat then stBadCommand
  else stOk

/-- REGION_READ (R143, R277): an UNBACKED region reads as zeros. -/
def execRegionRead (h : Hdr) (handle : Word32) (offset length : Word64) (s : State) : Host.Outcome State Fault Refusal :=
  .next (queueCmd s h 0x1A [(128, handle.toNat), (192, offset.toNat), (256, length.toNat)] true anyRec false fun s =>
    let st := s.rwCheck handle (ctxOfQueue h.sq) offset length
    if st ≠ stOk then s.done h st
    else
      (s.send (.hostWrite h.dptr.toNat (s.regionBytes (handleIdx handle) offset.toNat length.toNat))).doneXfer h stOk length.toNat
        false (.out length.toNat))

/-- REGION_WRITE (R143, R277). -/
def execRegionWrite (h : Hdr) (handle : Word32) (offset length : Word64) (data : List Byte) (s : State) :
    Host.Outcome State Fault Refusal :=
  .next (queueCmd s h 0x1B [(128, handle.toNat), (192, offset.toNat), (256, length.toNat)] true anyRec false fun s =>
    let st := s.rwCheck handle (ctxOfQueue h.sq) offset length
    let i := handleIdx handle
    let r := s.region i
    if st ≠ stOk then s.done h st
    else if r.kind = .capture && r.win = .unbacked then s.done h stNotReady
    else if r.kind = .capture && (r.win = .capturing || r.win = .draining) then s.done h stSegActive
    else
      let s := s.send (.hostRead h.dptr.toNat length.toNat)
      let old := s.regionBytes i offset.toNat length.toNat
      let s := s.regionWrite i offset.toNat (sliceB data 0 length.toNat)
      let s := if r.kind = .capture then s.updRegion i fun g => { g with win := .filled } else s
      s.doneXfer h stOk length.toNat false (.region i offset.toNat r.gen old))

/-- The mapped region that BAR2 offset a falls in, and the offset within it (R268). -/
def State.bar2At (s : State) (a : Nat) : Option (Nat × Nat) :=
  s.liveRegions.findSome? fun r => match r.2.map with
    | some o => if o ≤ a && decide (a < o + r.2.size) then some (r.1, a - o) else none
    | none => none

/-- BAR2 acts once the device is ready (R270). -/
def State.bar2Byte (s : State) (a : Nat) : Byte :=
  match s.bar2At a with
  | some (i, o) => Memory.read 0 (s.region i).mem o
  | none => 0

/-- BAR2_READ (R268, R270). -/
def execBar2Read (offset length : Nat) (s : State) : Host.Outcome State Fault Refusal :=
  .next (inRun s fun s =>
    s.send (.readBytes ((List.range length).map fun k => if s.dev.ready then s.bar2Byte (offset + k) else 0)))

/-- One byte written through BAR2: only a SHARED region takes it (R268). -/
def State.bar2Put (s : State) (a : Nat) (b : Byte) : State :=
  match s.bar2At a with
  | some (i, o) =>
    if (s.region i).kind = .shared then s.updRegion i fun r => { r with mem := Memory.write 0 r.mem o b } else s
  | none => s

/-- BAR2_WRITE (R268, R270). -/
def execBar2Write (offset : Nat) (data : List Byte) (s : State) : Host.Outcome State Fault Refusal :=
  .next (whenReady s fun s =>
    ((List.range data.length).foldl (fun s k => s.bar2Put (offset + k) (data.getD k 0)) s))

end Sys2Proof.Machine
end

