-- ==== Sys2Proof/Machine/Dispatch.lean ====
section
/-! DEFINITION. One arm per command of the table: each is one direct call of that command's meaning. -/

namespace Sys2Proof.Machine

/-- The effect of a command on everything but the queue. -/
def exec (i : Instr) (s : State) : Host.Outcome State Fault Refusal :=
  match i with
  | .lnLvlCommit lane v => Sys2Proof.Machine.execLnLvlCommit lane v s
  | .levelWrite h lane f => Sys2Proof.Machine.execLevelWrite h lane f s
  | .dacSettled lane => Sys2Proof.Machine.execDacSettled lane s
  | .adcStart lane v => Sys2Proof.Machine.execAdcStart lane v s
  | .adcMeasurementDone lane samples raw overRange => Sys2Proof.Machine.execAdcMeasurementDone lane samples raw overRange s
  | .comparatorEdge ch fine uv => Sys2Proof.Machine.execComparatorEdge ch fine uv s
  | .driverOvercurrent lane mask => Sys2Proof.Machine.execDriverOvercurrent lane mask s
  | .pmuOvercurrent lane mask => Sys2Proof.Machine.execPmuOvercurrent lane mask s
  | .clampEvent lane mask => Sys2Proof.Machine.execClampEvent lane mask s
  | .lnEvtStatusClear lane v => Sys2Proof.Machine.execLnEvtStatusClear lane v s
  | .tsetWrite h engine tset mux n period recs => Sys2Proof.Machine.execTsetWrite h engine tset mux n period recs s
  | .tsetTakesEffect e => Sys2Proof.Machine.execTsetTakesEffect e s
  | .testerCycle e => Sys2Proof.Machine.execTesterCycle e s
  | .granuleBoundary e => Sys2Proof.Machine.execGranuleBoundary e s
  | .activityWindowEnd lane => Sys2Proof.Machine.execActivityWindowEnd lane s
  | .lnActCtrlWrite lane v => Sys2Proof.Machine.execLnActCtrlWrite lane v s
  | .lnTsrSelWrite lane v => Sys2Proof.Machine.execLnTsrSelWrite lane v s
  | .lnTapSelWrite lane v => Sys2Proof.Machine.execLnTapSelWrite lane v s
  | .decisionPoint e ecc => Sys2Proof.Machine.execDecisionPoint e ecc s
  | .segmentFetch e bind gran ue => Sys2Proof.Machine.execSegmentFetch e bind gran ue s
  | .nop e => Sys2Proof.Machine.execNop e s
  | .halt e cond flg ctr imm => Sys2Proof.Machine.execHalt e cond flg ctr imm s
  | .play e seg => Sys2Proof.Machine.execPlay e seg s
  | .playn e imm seg => Sys2Proof.Machine.execPlayn e imm seg s
  | .idle e imm => Sys2Proof.Machine.execIdle e imm s
  | .jmp e tgt => Sys2Proof.Machine.execJmp e tgt s
  | .jif e cond flg ctr tgt => Sys2Proof.Machine.execJif e cond flg ctr tgt s
  | .call e tgt => Sys2Proof.Machine.execCall e tgt s
  | .ret e => Sys2Proof.Machine.execRet e s
  | .loop e ctr imm => Sys2Proof.Machine.execLoop e ctr imm s
  | .endl e ctr => Sys2Proof.Machine.execEndl e ctr s
  | .matchEntry e cond flg ctr imm seg => Sys2Proof.Machine.execMatchEntry e cond flg ctr imm seg s
  | .matchIterationsExhausted e => Sys2Proof.Machine.execMatchIterationsExhausted e s
  | .waitEntry e cond flg ctr imm tgt => Sys2Proof.Machine.execWaitEntry e cond flg ctr imm tgt s
  | .barEntry e ctr imm tgt => Sys2Proof.Machine.execBarEntry e ctr imm tgt s
  | .waitBarTimeout e => Sys2Proof.Machine.execWaitBarTimeout e s
  | .apgrun e tgt len => Sys2Proof.Machine.execApgrun e tgt len s
  | .apgld e ctr imm => Sys2Proof.Machine.execApgld e ctr imm s
  | .setf e ctr => Sys2Proof.Machine.execSetf e ctr s
  | .clrf e ctr => Sys2Proof.Machine.execClrf e ctr s
  | .arm e ctr => Sys2Proof.Machine.execArm e ctr s
  | .fire e ctr => Sys2Proof.Machine.execFire e ctr s
  | .capt e ctr imm bind => Sys2Proof.Machine.execCapt e ctr imm bind s
  | .mark e imm => Sys2Proof.Machine.execMark e imm s
  | .ldc e ctr imm => Sys2Proof.Machine.execLdc e ctr imm s
  | .sym e ctr => Sys2Proof.Machine.execSym e ctr s
  | .coupledPeerFault e => Sys2Proof.Machine.execCoupledPeerFault e s
  | .coxCtrlReset e v => Sys2Proof.Machine.execCoxCtrlReset e v s
  | .heatLaunch e ecc => Sys2Proof.Machine.execHeatLaunch e ecc s
  | .holdTakesEffect e => Sys2Proof.Machine.execHoldTakesEffect e s
  | .heatResumeTick e => Sys2Proof.Machine.execHeatResumeTick e s
  | .deviceFlagApply => Sys2Proof.Machine.execDeviceFlagApply s
  | .regattaFlagApply => Sys2Proof.Machine.execRegattaFlagApply s
  | .coxDflagsSet e v => Sys2Proof.Machine.execCoxDflagsSet e v s
  | .coxDflagsClr e v => Sys2Proof.Machine.execCoxDflagsClr e v s
  | .coxRflagsSet e v => Sys2Proof.Machine.execCoxRflagsSet e v s
  | .coxRflagsClr e v => Sys2Proof.Machine.execCoxRflagsClr e v s
  | .coxTblSelWrite e v => Sys2Proof.Machine.execCoxTblSelWrite e v s
  | .coxCfgWrite e v => Sys2Proof.Machine.execCoxCfgWrite e v s
  | .coxBindWrite e b v => Sys2Proof.Machine.execCoxBindWrite e b v s
  | .patternConfigWrite e r v => Sys2Proof.Machine.execPatternConfigWrite e r v s
  | .tableLoad h engine space first count data => Sys2Proof.Machine.execTableLoad h engine space first count data s
  | .tablePatch h engine space first count data => Sys2Proof.Machine.execTablePatch h engine space first count data s
  | .segmentWrite h handle first count data => Sys2Proof.Machine.execSegmentWrite h handle first count data s
  | .regionAlloc h kind map m size mask => Sys2Proof.Machine.execRegionAlloc h kind map m size mask s
  | .regionFree h handle => Sys2Proof.Machine.execRegionFree h handle s
  | .regionZeroingDone handle => Sys2Proof.Machine.execRegionZeroingDone handle s
  | .regionRead h handle offset length => Sys2Proof.Machine.execRegionRead h handle offset length s
  | .regionWrite h handle offset length data => Sys2Proof.Machine.execRegionWrite h handle offset length data s
  | .heatStart h engine start decl => Sys2Proof.Machine.execHeatStart h engine start decl s
  | .heatAdmission e => Sys2Proof.Machine.execHeatAdmission e s
  | .heatCompletion e => Sys2Proof.Machine.execHeatCompletion e s
  | .captureWriteLanded e ue hbm => Sys2Proof.Machine.execCaptureWriteLanded e ue hbm s
  | .rawWindowEnd e => Sys2Proof.Machine.execRawWindowEnd e s
  | .fcCntClr v => Sys2Proof.Machine.execFcCntClr v s
  | .fcDrainReq v => Sys2Proof.Machine.execFcDrainReq v s
  | .fcGeomWrite g r v => Sys2Proof.Machine.execFcGeomWrite g r v s
  | .drainStart => Sys2Proof.Machine.execDrainStart s
  | .drainDone => Sys2Proof.Machine.execDrainDone s
  | .failstoreRead h handle offset length bad => Sys2Proof.Machine.execFailstoreRead h handle offset length bad s
  | .failstoreMerge h n handles => Sys2Proof.Machine.execFailstoreMerge h n handles s
  | .mergeDone bad => Sys2Proof.Machine.execMergeDone bad s
  | .failstoreFree h handle => Sys2Proof.Machine.execFailstoreFree h handle s
  | .nvmeDriveError k status offline => Sys2Proof.Machine.execNvmeDriveError k status offline s
  | .nvmePortOnline k usable bytes speed width => Sys2Proof.Machine.execNvmePortOnline k usable bytes speed width s
  | .timSetup h unit arm cfg sel count timeout ofs => Sys2Proof.Machine.execTimSetup h unit arm cfg sel count timeout ofs s
  | .timArm u => Sys2Proof.Machine.execTimArm u s
  | .timDisarm u => Sys2Proof.Machine.execTimDisarm u s
  | .timConfigWrite u r v => Sys2Proof.Machine.execTimConfigWrite u r v s
  | .timGateChange u balls => Sys2Proof.Machine.execTimGateChange u balls s
  | .timStartEdge u edge => Sys2Proof.Machine.execTimStartEdge u edge s
  | .timStopEdge u edge => Sys2Proof.Machine.execTimStopEdge u edge s
  | .timTimeout u => Sys2Proof.Machine.execTimTimeout u s
  | .timDeadTimeEnd u => Sys2Proof.Machine.execTimDeadTimeEnd u s
  | .timResStatRead u => Sys2Proof.Machine.execTimResStatRead u s
  | .refclkLost => Sys2Proof.Machine.execRefclkLost s
  | .refclkReturnRecognised => Sys2Proof.Machine.execRefclkReturnRecognised s
  | .pllRelocked => Sys2Proof.Machine.execPllRelocked s
  | .trgGrpArm g => Sys2Proof.Machine.execTrgGrpArm g s
  | .trgGrpDisarm g => Sys2Proof.Machine.execTrgGrpDisarm g s
  | .trgGrpCfgWrite g r v => Sys2Proof.Machine.execTrgGrpCfgWrite g r v s
  | .trigInEdge rising => Sys2Proof.Machine.execTrigInEdge rising s
  | .fireCommit g => Sys2Proof.Machine.execFireCommit g s
  | .rearmInstantKnown g => Sys2Proof.Machine.execRearmInstantKnown g s
  | .trigOutPulse => Sys2Proof.Machine.execTrigOutPulse s
  | .trigOutPulseEnd => Sys2Proof.Machine.execTrigOutPulseEnd s
  | .trgOutCfgWrite v => Sys2Proof.Machine.execTrgOutCfgWrite v s
  | .acqSetup h unit arm cfg pre post count region level hyst => Sys2Proof.Machine.execAcqSetup h unit arm cfg pre post count region level hyst s
  | .acqArm k => Sys2Proof.Machine.execAcqArm k s
  | .acqStart k => Sys2Proof.Machine.execAcqStart k s
  | .acqStop k => Sys2Proof.Machine.execAcqStop k s
  | .acqAdcFree k => Sys2Proof.Machine.execAcqAdcFree k s
  | .acqSample k convs => Sys2Proof.Machine.execAcqSample k convs s
  | .acqPostComplete k => Sys2Proof.Machine.execAcqPostComplete k s
  | .logPacketEnter => Sys2Proof.Machine.execLogPacketEnter s
  | .logIntakeToBank => Sys2Proof.Machine.execLogIntakeToBank s
  | .logBankSwap => Sys2Proof.Machine.execLogBankSwap s
  | .logSwapTimeout => Sys2Proof.Machine.execLogSwapTimeout s
  | .logRead dword count => Sys2Proof.Machine.execLogRead dword count s
  | .logLostPktsRead => Sys2Proof.Machine.execLogLostPktsRead s
  | .logLostWordsRead => Sys2Proof.Machine.execLogLostWordsRead s
  | .laneTempRead lane t => Sys2Proof.Machine.execLaneTempRead lane t s
  | .interpolatedTableInstall lane item => Sys2Proof.Machine.execInterpolatedTableInstall lane item s
  | .calItemStart lane => Sys2Proof.Machine.execCalItemStart lane s
  | .handoverShadowStart lane => Sys2Proof.Machine.execHandoverShadowStart lane s
  | .handoverSwitch lane fu => Sys2Proof.Machine.execHandoverSwitch lane fu s
  | .vernierMeasurementDone lane item h1 h2 => Sys2Proof.Machine.execVernierMeasurementDone lane item h1 h2 s
  | .slotFlashSave => Sys2Proof.Machine.execSlotFlashSave s
  | .calRequest h lanes => Sys2Proof.Machine.execCalRequest h lanes s
  | .calReq v => Sys2Proof.Machine.execCalReq v s
  | .calDtWrite v => Sys2Proof.Machine.execCalDtWrite v s
  | .surveyRunEnd vref fits adcFits adcFail => Sys2Proof.Machine.execSurveyRunEnd vref fits adcFits adcFail s
  | .ezDataFlit p flit pl => Sys2Proof.Machine.execEzDataFlit p flit pl s
  | .ezReplayTimeout p => Sys2Proof.Machine.execEzReplayTimeout p s
  | .ezLinkDown p => Sys2Proof.Machine.execEzLinkDown p s
  | .ezLinkTrained p lanes farId farPort => Sys2Proof.Machine.execEzLinkTrained p lanes farId farPort s
  | .ezEvtEasyall rx => Sys2Proof.Machine.execEzEvtEasyall rx s
  | .ezEvtFire rx => Sys2Proof.Machine.execEzEvtFire rx s
  | .ezEvtArm rx => Sys2Proof.Machine.execEzEvtArm rx s
  | .ezEvtDone rx => Sys2Proof.Machine.execEzEvtDone rx s
  | .ezEvtRflag rx => Sys2Proof.Machine.execEzEvtRflag rx s
  | .ezEvtCrew rx => Sys2Proof.Machine.execEzEvtCrew rx s
  | .ezEvtHold rx => Sys2Proof.Machine.execEzEvtHold rx s
  | .ezEvtRole rx => Sys2Proof.Machine.execEzEvtRole rx s
  | .ezEvtTt rx first second => Sys2Proof.Machine.execEzEvtTt rx first second s
  | .ezEvtLink rx => Sys2Proof.Machine.execEzEvtLink rx s
  | .ezOrderedEventApply => Sys2Proof.Machine.execEzOrderedEventApply s
  | .orphan => Sys2Proof.Machine.execOrphan s
  | .ezCtrlEnum => Sys2Proof.Machine.execEzCtrlEnum s
  | .ezCtrlSurvey => Sys2Proof.Machine.execEzCtrlSurvey s
  | .ezCtrlTakeover => Sys2Proof.Machine.execEzCtrlTakeover s
  | .enumerationDone me cables => Sys2Proof.Machine.execEnumerationDone me cables s
  | .skewSurveyDone => Sys2Proof.Machine.execSkewSurveyDone s
  | .skewSlewStep => Sys2Proof.Machine.execSkewSlewStep s
  | .ezRoleGo v => Sys2Proof.Machine.execEzRoleGo v s
  | .roleRequestTimeout => Sys2Proof.Machine.execRoleRequestTimeout s
  | .frameStart => Sys2Proof.Machine.execFrameStart s
  | .catchInPulse phase => Sys2Proof.Machine.execCatchInPulse phase s
  | .catchMiss => Sys2Proof.Machine.execCatchMiss s
  | .strokeGeneration => Sys2Proof.Machine.execStrokeGeneration s
  | .generationTimeout => Sys2Proof.Machine.execGenerationTimeout s
  | .ezStrokeWrite v => Sys2Proof.Machine.execEzStrokeWrite v s
  | .easyallRaise => Sys2Proof.Machine.execEasyallRaise s
  | .easyallClear => Sys2Proof.Machine.execEasyallClear s
  | .easyallNLow => Sys2Proof.Machine.execEasyallNLow s
  | .easyallIgnoreEnd low => Sys2Proof.Machine.execEasyallIgnoreEnd low s
  | .heatHold h engine => Sys2Proof.Machine.execHeatHold h engine s
  | .heatResume h engine => Sys2Proof.Machine.execHeatResume h engine s
  | .abort h tcid tsq => Sys2Proof.Machine.execAbort h tcid tsq s
  | .crewMap h engine coupling mask => Sys2Proof.Machine.execCrewMap h engine coupling mask s
  | .claim h kind first count => Sys2Proof.Machine.execClaim h kind first count s
  | .release h kind first count => Sys2Proof.Machine.execRelease h kind first count s
  | .lock h lock timeout => Sys2Proof.Machine.execLock h lock timeout s
  | .lockGrant lock => Sys2Proof.Machine.execLockGrant lock s
  | .lockTimeout sq cid => Sys2Proof.Machine.execLockTimeout sq cid s
  | .unlock h lock validate => Sys2Proof.Machine.execUnlock h lock validate s
  | .barrier h => Sys2Proof.Machine.execBarrier h s
  | .modeSet h mode => Sys2Proof.Machine.execModeSet h mode s
  | .commandFetch q entry => Sys2Proof.Machine.execCommandFetch q entry s
  | .commandStart q cid => Sys2Proof.Machine.execCommandStart q cid s
  | .commandCommit q cid => Sys2Proof.Machine.execCommandCommit q cid s
  | .hqSqTailWrite q v => Sys2Proof.Machine.execHqSqTailWrite q v s
  | .hqCqHeadWrite q v => Sys2Proof.Machine.execHqCqHeadWrite q v s
  | .hqSqCfgWrite q v => Sys2Proof.Machine.execHqSqCfgWrite q v s
  | .hqCqCfgWrite q v => Sys2Proof.Machine.execHqCqCfgWrite q v s
  | .hqSqRestart q => Sys2Proof.Machine.execHqSqRestart q s
  | .hqCtxReset c => Sys2Proof.Machine.execHqCtxReset c s
  | .gblCtrlDevReset v => Sys2Proof.Machine.execGblCtrlDevReset v s
  | .hostDeviceReset r => Sys2Proof.Machine.execHostDeviceReset r s
  | .gblApSelWrite n v => Sys2Proof.Machine.execGblApSelWrite n v s
  | .gblLockWrite n v => Sys2Proof.Machine.execGblLockWrite n v s
  | .apertureRead n offset => Sys2Proof.Machine.execApertureRead n offset s
  | .apertureWrite n offset v => Sys2Proof.Machine.execApertureWrite n offset v s
  | .bar2Read offset length => Sys2Proof.Machine.execBar2Read offset length s
  | .bar2Write offset data => Sys2Proof.Machine.execBar2Write offset data s
  | .registerWrite offset v => Sys2Proof.Machine.execRegisterWrite offset v s
  | .umpireEvent src detail => Sys2Proof.Machine.execUmpireEvent src detail s
  | .wireFault src level cycles => Sys2Proof.Machine.execWireFault src level cycles s
  | .umpireWindowClose src => Sys2Proof.Machine.execUmpireWindowClose src s
  | .reactionTimerExpiry src => Sys2Proof.Machine.execReactionTimerExpiry src s
  | .quietRecovery src => Sys2Proof.Machine.execQuietRecovery src s
  | .umpSrcClear src => Sys2Proof.Machine.execUmpSrcClear src s
  | .umpSrcForce src => Sys2Proof.Machine.execUmpSrcForce src s
  | .umpWireInj v => Sys2Proof.Machine.execUmpWireInj v s
  | .umpSrcConfigWrite src r v => Sys2Proof.Machine.execUmpSrcConfigWrite src r v s
  | .boathouseWatchdogExpiry pc => Sys2Proof.Machine.execBoathouseWatchdogExpiry pc s
  | .sensorRead temps volts currents => Sys2Proof.Machine.execSensorRead temps volts currents s
  | .crossDieCheck vddh0 vddh1 => Sys2Proof.Machine.execCrossDieCheck vddh0 vddh1 s
  | .getInfo src body => Sys2Proof.Machine.execGetInfo src body s
  | .readSensors src body => Sys2Proof.Machine.execReadSensors src body s
  | .readLog src body => Sys2Proof.Machine.execReadLog src body s
  | .updateErase src body => Sys2Proof.Machine.execUpdateErase src body s
  | .updateWrite src body => Sys2Proof.Machine.execUpdateWrite src body s
  | .updateVerify src body => Sys2Proof.Machine.execUpdateVerify src body s
  | .updateActivate src body => Sys2Proof.Machine.execUpdateActivate src body s
  | .propose src body => Sys2Proof.Machine.execPropose src body s
  | .sign src body => Sys2Proof.Machine.execSign src body s
  | .commit src body => Sys2Proof.Machine.execCommit src body s
  | .cancel src body => Sys2Proof.Machine.execCancel src body s
  | .getProposal src body => Sys2Proof.Machine.execGetProposal src body s
  | .proposalExpiry => Sys2Proof.Machine.execProposalExpiry s
  | .debugChallenge src body => Sys2Proof.Machine.execDebugChallenge src body s
  | .debugResponse src body => Sys2Proof.Machine.execDebugResponse src body s
  | .debugChallengeExpiry => Sys2Proof.Machine.execDebugChallengeExpiry s
  | .debugLock src body => Sys2Proof.Machine.execDebugLock src body s
  | .setPartyKeys src body => Sys2Proof.Machine.execSetPartyKeys src body s
  | .setEndpointId eid pkts => Sys2Proof.Machine.execSetEndpointId eid pkts s
  | .getEndpointId pkts => Sys2Proof.Machine.execGetEndpointId pkts s
  | .getMctpVersionSupport pkts => Sys2Proof.Machine.execGetMctpVersionSupport pkts s
  | .getMessageTypeSupport pkts => Sys2Proof.Machine.execGetMessageTypeSupport pkts s
  | .getVendorDefinedMessageSupport pkts => Sys2Proof.Machine.execGetVendorDefinedMessageSupport pkts s
  | .tapInstructionLoad x => Sys2Proof.Machine.execTapInstructionLoad x s
  | .wakeDetected w => Sys2Proof.Machine.execWakeDetected w s
  | .wakeDetectorArmed present => Sys2Proof.Machine.execWakeDetectorArmed present s
  | .pgAsserted n => Sys2Proof.Machine.execPgAsserted n s
  | .powerGroupEnable => Sys2Proof.Machine.execPowerGroupEnable s
  | .pllLocked => Sys2Proof.Machine.execPllLocked s
  | .bootComplete => Sys2Proof.Machine.execBootComplete s
  | .pgTimeout => Sys2Proof.Machine.execPgTimeout s
  | .pllLockTimeout => Sys2Proof.Machine.execPllLockTimeout s
  | .wakeRetry => Sys2Proof.Machine.execWakeRetry s
  | .stopEntry => Sys2Proof.Machine.execStopEntry s
  | .pgLoss n => Sys2Proof.Machine.execPgLoss n s
  | .powerOnReset snsUv => Sys2Proof.Machine.execPowerOnReset snsUv s
  | .vaonLoss => Sys2Proof.Machine.execVaonLoss s
  | .resetN => Sys2Proof.Machine.execResetN s
  | .rootPllLockLoss => Sys2Proof.Machine.execRootPllLockLoss s
  | .railSenseEvent n uv => Sys2Proof.Machine.execRailSenseEvent n uv s
  | .rsSnsThrWrite n v => Sys2Proof.Machine.execRsSnsThrWrite n v s
  | .rsCheck v => Sys2Proof.Machine.execRsCheck v s
  | .rsCheckDone uv => Sys2Proof.Machine.execRsCheckDone uv s
  | .rsReadback uv => Sys2Proof.Machine.execRsReadback uv s
  | .refclkReturning => Sys2Proof.Machine.execRefclkReturning s
  | .resetNRelease => Sys2Proof.Machine.execResetNRelease s
  | .pcieUncorrectableError aer => Sys2Proof.Machine.execPcieUncorrectableError aer s
  | .dieToDieInterfaceError die lanes => Sys2Proof.Machine.execDieToDieInterfaceError die lanes s
  | .pmuCompliance ch limit => Sys2Proof.Machine.execPmuCompliance ch limit s
  | .unsettledOutputSettles n uv => Sys2Proof.Machine.execUnsettledOutputSettles n uv s
  | .ezEvtReservedType rx => Sys2Proof.Machine.execEzEvtReservedType rx s

end Sys2Proof.Machine
end

