-- ==== Sys2Proof/Machine/Tick.lean ====
section
/-! DEFINITION. What one tick of the device's clock brings when no command waits (log entry 3). -/

namespace Sys2Proof.Machine

/-- One tick passes: the clock advances, the Umpire samples its pairs at each CK_C edge (R299), the stop edges of the tick
that has passed give their results (R185), an overdue exchange of a skew survey is followed by the next (R253), the root
hears of heats (R247), and the first links of coupled heats are foreseen (R263). -/
def State.tick (s : State) : State :=
  let s := (idleTick s).samplePairs.settleStops.ttOverdue.tellHeats
  (s.enginesIn fun r => r.coupled && r.heat.isSome).foldl (fun s e => s.foreseeFirst e) s

end Sys2Proof.Machine
end

