-- ==== Sys2Proof/Safety.lean ====
section
/-! DEFINITION. The terms the statements use: what it is for a command to answer a next state, for the device to be able to
act, for a queue command to be served and decided, and for a command to leave parts of the state alone. -/

namespace Sys2Proof.Machine

/-- Command i, executed in s, answers a next state of which P holds. -/
def Answers (i : Instr) (s : State) (P : State → Prop) : Prop := ∃ t, exec i s = .next t ∧ P t

/-- Command i, executed in s, changes nothing. -/
def Ignores (i : Instr) (s : State) : Prop := exec i s = .next s

/-- An event of Umpire source n reaches the Umpire with this detail word, unless the source is broken or its pair held: the pair
reads Event, and the word is the source's last (R299 to R302). -/
def Reported (s t : State) (n : Nat) (detail : Word32) : Prop :=
  (s.src n).wire = false → (s.src n).heldAt s.ckC = none →
  (t.src n).last = detail ∧ (t.src n).pairP = true ∧ (t.src n).pairN = false

/-- The device is powered (R341). -/
abbrev Powered (s : State) : Prop := s.dev.base ≠ .stop

/-- The device is powered and READY = 1, so that every BAR0 window works (R270). -/
abbrev HostUp (s : State) : Prop := s.dev.base ≠ .stop ∧ s.dev.ready = true

/-- The entry of a BOATHOUSE_MSG that a queue sends (R277). -/
def spelledMsg (src : MsgSrc) (typ : Nat) (body : List Byte) : Option (Byte × List (Nat × Nat)) :=
  match src with
  | .queue _ rspLen rspPtr => some (0x3A, [(128, typ), (144, body.length), (192, rspPtr.toNat), (256, rspLen.toNat)])
  | _ => none

/-- What the entry of a queue command spells besides its header: OPC and the operand fields, by bit position (R275, R277). -/
def spelled (i : Instr) : Option (Byte × List (Nat × Nat)) :=
  match i with
  | .levelWrite _ lane f => some (0x11, levelFields lane f)
  | .tsetWrite _ engine tset mux n period _ =>
    some (0x10, [(128, engine.toNat), (136, tset.toNat), (144, mux.toNat), (160, n.toNat), (192, period.toNat)])
  | .tableLoad _ engine space first count _ =>
    some (0x08, [(128, engine.toNat), (136, space.toNat), (144, first.toNat), (160, count.toNat)])
  | .tablePatch _ engine space first count _ =>
    some (0x09, [(128, engine.toNat), (136, space.toNat), (144, first.toNat), (160, count.toNat)])
  | .segmentWrite _ handle first count _ => some (0x0A, [(128, handle.toNat), (160, first.toNat), (192, count.toNat)])
  | .regionAlloc _ kind map m size mask =>
    some (0x18, [(128, kind.toNat), (136, map.toNat), (144, m.toNat), (192, size.toNat), (256, mask.toNat)])
  | .regionFree _ handle => some (0x19, [(128, handle.toNat)])
  | .regionRead _ handle offset length => some (0x1A, [(128, handle.toNat), (192, offset.toNat), (256, length.toNat)])
  | .regionWrite _ handle offset length _ =>
    some (0x1B, [(128, handle.toNat), (192, offset.toNat), (256, length.toNat)])
  | .heatStart _ engine start decl =>
    some (0x01, [(128, engine.toNat), (144, start.toNat), (256, decl.d0.toNat), (320, decl.d1.toNat),
    (384, decl.d2.toNat), (448, decl.d3.toNat)])
  | .failstoreRead _ handle offset length _ =>
    some (0x30, [(128, handle.toNat), (192, offset.toNat), (256, length.toNat)])
  | .failstoreMerge _ n handles => some (0x31, mergeFields n handles)
  | .failstoreFree _ handle => some (0x32, [(128, handle.toNat)])
  | .timSetup _ unit arm cfg sel count timeout ofs =>
    some (0x29, [(128, unit.toNat), (136, arm.toNat), (160, cfg.toNat), (192, sel.toNat), (224, count.toNat),
    (256, timeout.toNat), (320, ofs.toNat)])
  | .acqSetup _ unit arm cfg pre post count region level hyst =>
    some (0x2A, [(128, unit.toNat), (136, arm.toNat), (160, cfg.toNat), (192, pre.toNat), (224, post.toNat),
    (256, count.toNat), (288, region.toNat), (320, level.toNat), (352, hyst.toNat)])
  | .calRequest _ lanes => some (0x28, [(128, lanes.toNat)])
  | .heatHold _ engine => some (0x02, [(128, engine.toNat)])
  | .heatResume _ engine => some (0x03, [(128, engine.toNat)])
  | .abort _ tcid tsq => some (0x04, [(128, tcid.toNat), (144, tsq.toNat)])
  | .crewMap _ engine coupling mask => some (0x12, [(128, engine.toNat), (136, coupling.toNat), (256, mask.toNat)])
  | .claim _ kind first count => some (0x20, [(128, kind.toNat), (144, first.toNat), (160, count.toNat)])
  | .release _ kind first count => some (0x21, [(128, kind.toNat), (144, first.toNat), (160, count.toNat)])
  | .lock _ lock timeout => some (0x22, [(128, lock.toNat), (160, timeout.toNat)])
  | .unlock _ lock validate => some (0x23, [(128, lock.toNat), (136, validate.toNat)])
  | .barrier _ => some (0x38, [])
  | .modeSet _ mode => some (0x39, [(128, mode.toNat)])
  | .getInfo src body => spelledMsg src 1 body
  | .readSensors src body => spelledMsg src 2 body
  | .readLog src body => spelledMsg src 3 body
  | .updateErase src body => spelledMsg src 0x10 body
  | .updateWrite src body => spelledMsg src 0x11 body
  | .updateVerify src body => spelledMsg src 0x12 body
  | .updateActivate src body => spelledMsg src 0x13 body
  | .propose src body => spelledMsg src 0x20 body
  | .sign src body => spelledMsg src 0x21 body
  | .commit src body => spelledMsg src 0x22 body
  | .cancel src body => spelledMsg src 0x23 body
  | .getProposal src body => spelledMsg src 0x24 body
  | .debugChallenge src body => spelledMsg src 0x30 body
  | .debugResponse src body => spelledMsg src 0x31 body
  | .debugLock src body => spelledMsg src 0x32 body
  | .setPartyKeys src body => spelledMsg src 0x40 body
  | _ => none

/-- The command i of header h is served on this device: it is powered, a record in flight that names the command is started,
waits for no earlier HEAT_START and was fetched as this command, DPTR is used where it is not 0 (R275), TARGET is this device
and an enumerated member, and the entry list that judges it permits it (R276, R324, R325). -/
abbrev Serves (s : State) (i : Instr) (h : Hdr) (permit : EntryRec → Bool) : Prop :=
  Powered s ∧
  (∀ c ∈ s.host.inflight, c.names h.sq h.cid = true → c.stage = .started ∧ c.behind = false ∧
    (c.raw.all fun e => (spelled i).any fun x => entrySpells e h x.1 x.2) = true) ∧
  ((spelled i).any fun x => usesDptr x.1 || h.dptr = 0) = true ∧
  bit s.ez.members h.target.toNat = true ∧ h.target = s.ez.id ∧ grantsMember (s.recOf h) h.target = true ∧
  permit (s.recOf h) = true

/-- The completion of header h is decided with this status (R284). -/
def Decided (t : State) (h : Hdr) (st : Byte) : Prop :=
  ∃ c ∈ t.host.inflight, c.names h.sq h.cid = true ∧ c.stage = .committed ∧ c.status = st

/-- The same with the results the entry reports: DETAIL, RESULT0 and RESULT1 (R282). -/
def Result (t : State) (h : Hdr) (st : Byte) (detail : Word32) (r0 r1 : Word64) : Prop :=
  ∃ c ∈ t.host.inflight, c.names h.sq h.cid = true ∧ c.stage = .committed ∧ c.status = st ∧ c.detail = detail ∧ c.r0 = r0 ∧
    c.r1 = r1

/-- The command of header h is in flight and undecided. -/
def Waits (t : State) (h : Hdr) : Prop :=
  ∃ c ∈ t.host.inflight, c.names h.sq h.cid = true ∧ c.stage = .started

/-- The names, queue and CID, under which something waits on this device: a heat and its timing-set writes, a launch queue, a mode, a
calibration, a crew map, a lock or a merge. -/
def State.waitNames (s : State) : List (QueueId × BitVec 16) :=
  (s.engines.flatMap fun x =>
    (x.2.heat.toList.flatMap fun g => (g.sq, g.cid) :: g.pendTsets.map fun p => (p.sq, p.cid)) ++
    x.2.launchQ.map fun q => (q.sq, q.cid)) ++
  (s.dev.waits.map fun w => (w.sq, w.cid)) ++ (s.cal.reqs.map fun r => (r.sq, r.cid)) ++
  (s.cal.mapWaits.map fun w => (w.sq, w.cid)) ++ (s.host.locks.flatMap fun l => l.2.waiters.map fun w => (w.sq, w.cid)) ++
  ((s.fc.job.toList ++ s.fc.merges).filterMap fun j => match j with
    | .merge _ q cid _ _ => some (q, cid)
    | .drain _ _ => none)

/-- The command of header h has only now been started, as one of this opcode: nothing waits under its name yet. -/
abbrev Unnamed (s : State) (h : Hdr) (opc : Byte) : Prop :=
  (h.sq, h.cid) ∉ s.waitNames ∧ ∀ c ∈ s.host.inflight, c.names h.sq h.cid = true → c.opc = opc

/-- The parts of the state a frame speaks of: every field of `State` is in exactly one. -/
inductive Part where
  | pending
  | now
  | freeCount
  | out
  | modeState
  | holdReq
  | modeSeen
  | ready
  | tapInst
  | crossDie
  | lanes
  | chans
  | tsets
  | acts
  | taps
  | engines
  | flagBits
  | flagPend
  | pins
  | regions
  | objs
  | fcErrors
  | geoms
  | drives
  | captureQueue
  | hbmUe
  | drainState
  | tims
  | reference
  | groups
  | trgErrors
  | trigOut
  | acqs
  | logFinished
  | logCfg
  | logStream
  | calCfg
  | surveyState
  | calSlots
  | calWaits
  | docked
  | calLanes
  | ezTree
  | heatMasks
  | ezSurvey
  | ezErrors
  | skew
  | catchState
  | strokeState
  | roleState
  | gridState
  | ordered
  | ports
  | easyAll
  | easyAllCfg
  | hostCmds
  | queuePairs
  | contexts
  | claims
  | locks
  | apSel
  | apWaits
  | pciCfg
  | msixTable
  | msixPend
  | sharedFree
  | umpHist
  | umpCfg
  | umpSrcs
  | mailbox
  | bhFlash
  | proposal
  | policy
  | firmware
  | failKeys
  | debugLock
  | sensors
  | eid
  | policyStore
  | bhCore
  | aonCfg
  | stopTimer
  | wakeFailure
  | rails
  | railRegs
  | sns
deriving DecidableEq, Repr

/-- A list of parts. -/
abbrev Parts := List Part

/-- One part is the same in both states. -/
def Part.same (p : Part) (s t : State) : Prop :=
  match p with
  | .pending => t.pending = s.pending
  | .now => t.now = s.now
  | .freeCount => t.freeCount = s.freeCount
  | .out => t.out = s.out
  | .modeState => t.dev.base = s.dev.base ∧ t.dev.safePend = s.dev.safePend ∧ t.dev.waits = s.dev.waits
  | .holdReq => t.dev.holdReq = s.dev.holdReq
  | .modeSeen => t.dev.seenSafe = s.dev.seenSafe ∧ t.dev.seenHold = s.dev.seenHold ∧ t.dev.seenRun = s.dev.seenRun
  | .ready => t.dev.ready = s.dev.ready
  | .tapInst => t.dev.variant = s.dev.variant ∧ t.dev.tap = s.dev.tap
  | .crossDie => t.dev.tempRun = s.dev.tempRun ∧ t.dev.voltRun = s.dev.voltRun
  | .lanes => t.lanes = s.lanes
  | .chans => t.chans = s.chans
  | .tsets => t.tsets = s.tsets
  | .acts => t.acts = s.acts
  | .taps => t.taps = s.taps
  | .engines => t.engines = s.engines
  | .flagBits =>
    t.flags.dev = s.flags.dev ∧ t.flags.reg = s.flags.reg ∧ t.flags.devHist = s.flags.devHist ∧
    t.flags.regHist = s.flags.regHist
  | .flagPend => t.flags.devPend = s.flags.devPend ∧ t.flags.regPend = s.flags.regPend
  | .pins => t.pins = s.pins
  | .regions => t.regions = s.regions
  | .objs => t.objs = s.objs
  | .fcErrors => t.fc.ignored = s.fc.ignored ∧ t.fc.refused = s.fc.refused ∧ t.fc.drainRefused = s.fc.drainRefused
  | .geoms => t.fc.geoms = s.fc.geoms ∧ t.fc.geomPast = s.fc.geomPast
  | .drives => t.fc.nv = s.fc.nv
  | .captureQueue => t.fc.queue = s.fc.queue
  | .hbmUe => t.fc.hbmUe = s.fc.hbmUe
  | .drainState =>
    t.fc.drainBytes = s.fc.drainBytes ∧ t.fc.drainLast = s.fc.drainLast ∧ t.fc.zeroing = s.fc.zeroing ∧
    t.fc.job = s.fc.job ∧ t.fc.merges = s.fc.merges ∧ t.fc.drainSeq = s.fc.drainSeq
  | .tims => t.tims = s.tims
  | .reference =>
    t.ref.present = s.ref.present ∧ t.ref.relocked = s.ref.relocked ∧ t.ref.holdover = s.ref.holdover ∧
    t.ref.returning = s.ref.returning ∧ t.ref.latch = s.ref.latch ∧ t.ref.lossCount = s.ref.lossCount ∧
    t.ref.lossTime = s.ref.lossTime ∧ t.ref.returnTime = s.ref.returnTime ∧ t.ref.lossEdge = s.ref.lossEdge ∧
    t.ref.since = s.ref.since ∧ t.ref.relocking = s.ref.relocking ∧ t.ref.spans = s.ref.spans
  | .groups => t.groups = s.groups
  | .trgErrors => t.trg.ignored = s.trg.ignored ∧ t.trg.refused = s.trg.refused ∧ t.trg.mismatch = s.trg.mismatch
  | .trigOut =>
    t.trg.outCfg = s.trg.outCfg ∧ t.trg.outHigh = s.trg.outHigh ∧ t.trg.outRise = s.trg.outRise ∧
    t.trg.outFall = s.trg.outFall
  | .acqs => t.acqs = s.acqs
  | .logFinished => t.log.finished = s.log.finished
  | .logCfg => t.log.cfg = s.log.cfg ∧ t.log.swap = s.log.swap ∧ t.log.kindEn = s.log.kindEn
  | .logStream =>
    t.log.intake = s.log.intake ∧ t.log.filling = s.log.filling ∧ t.log.draining = s.log.draining ∧
    t.log.fillBank = s.log.fillBank ∧ t.log.last = s.log.last ∧ t.log.lostPkts = s.log.lostPkts ∧
    t.log.lostWords = s.log.lostWords ∧ t.log.levelIrq = s.log.levelIrq ∧ t.log.lost = s.log.lost ∧
    t.log.seq = s.log.seq
  | .calCfg => t.cal.en = s.cal.en ∧ t.cal.dt = s.cal.dt ∧ t.cal.refused = s.cal.refused
  | .surveyState =>
    t.cal.surveyBusy = s.cal.surveyBusy ∧ t.cal.laneFail = s.cal.laneFail ∧ t.cal.vrefBad = s.cal.vrefBad ∧
    t.cal.surveyDone = s.cal.surveyDone ∧ t.cal.surveySeq = s.cal.surveySeq ∧ t.cal.corr = s.cal.corr
  | .calSlots =>
    t.cal.slots = s.cal.slots ∧ t.cal.temps = s.cal.temps ∧ t.cal.unsaved = s.cal.unsaved ∧
    t.cal.flashSlots = s.cal.flashSlots ∧ t.cal.flashTemps = s.cal.flashTemps ∧
    t.cal.savedAt = s.cal.savedAt
  | .calWaits => t.cal.reqs = s.cal.reqs ∧ t.cal.mapWaits = s.cal.mapWaits
  | .docked => t.cal.docked = s.cal.docked
  | .calLanes => t.calLanes = s.calLanes
  | .ezTree =>
    t.ez.id = s.ez.id ∧ t.ez.valid = s.ez.valid ∧ t.ez.root = s.ez.root ∧ t.ez.parent = s.ez.parent ∧
    t.ez.depth = s.ez.depth ∧ t.ez.enumBusy = s.ez.enumBusy ∧ t.ez.enumDone = s.ez.enumDone ∧
    t.ez.members = s.ez.members ∧ t.ez.couplings = s.ez.couplings ∧ t.ez.all = s.ez.all ∧
    t.ez.tree = s.ez.tree
  | .heatMasks => t.ez.heatIds = s.ez.heatIds ∧ t.ez.heatsTold = s.ez.heatsTold
  | .ezSurvey =>
    t.ez.surveyBusy = s.ez.surveyBusy ∧ t.ez.surveyAgain = s.ez.surveyAgain ∧
    t.ez.surveyTemp = s.ez.surveyTemp ∧ t.ez.surveyFail = s.ez.surveyFail ∧ t.ez.surveyAt = s.ez.surveyAt ∧
    t.ez.links = s.ez.links ∧ t.ez.svResult = s.ez.svResult
  | .ezErrors =>
    t.ez.orphan = s.ez.orphan ∧ t.ez.lateEvent = s.ez.lateEvent ∧ t.ez.refused = s.ez.refused ∧
    t.ez.apLost = s.ez.apLost ∧ t.ez.catchDrift = s.ez.catchDrift
  | .skew =>
    t.ez.target = s.ez.target ∧ t.ez.applied = s.ez.applied ∧ t.ez.slewAt = s.ez.slewAt ∧ t.ez.slews = s.ez.slews
  | .catchState =>
    t.ez.phase = s.ez.phase ∧ t.ez.ref = s.ez.ref ∧ t.ez.tol = s.ez.tol ∧ t.ez.misses = s.ez.misses ∧
    t.ez.missRun = s.ez.missRun ∧ t.ez.driftRun = s.ez.driftRun ∧ t.ez.gotCatch = s.ez.gotCatch ∧
    t.ez.phases = s.ez.phases
  | .strokeState =>
    t.ez.stroke = s.ez.stroke ∧ t.ez.strokeReg = s.ez.strokeReg ∧ t.ez.gen = s.ez.gen ∧
    t.ez.genFrame = s.ez.genFrame ∧ t.ez.genAt = s.ez.genAt ∧ t.ez.genPend = s.ez.genPend ∧
    t.ez.genSent = s.ez.genSent ∧ t.ez.newStrokeFrom = s.ez.newStrokeFrom ∧ t.ez.catchOut = s.ez.catchOut ∧
    t.ez.catchFall = s.ez.catchFall ∧ t.ez.genTick = s.ez.genTick ∧ t.ez.genCatch = s.ez.genCatch ∧
    t.ez.genStroke = s.ez.genStroke
  | .roleState =>
    t.ez.standby = s.ez.standby ∧ t.ez.role = s.ez.role ∧ t.ez.roleBusy = s.ez.roleBusy ∧
    t.ez.roleAt = s.ez.roleAt ∧ t.ez.roleResult = s.ez.roleResult ∧ t.ez.roleConflict = s.ez.roleConflict ∧
    t.ez.roleReq = s.ez.roleReq ∧ t.ez.roleLost = s.ez.roleLost
  | .gridState => t.ez.lead = s.ez.lead ∧ t.ez.frameLoad = s.ez.frameLoad ∧ t.ez.grid = s.ez.grid
  | .ordered => t.ez.ordered = s.ez.ordered
  | .ports => t.ports = s.ports
  | .easyAll =>
    t.ea.latched = s.ea.latched ∧ t.ea.safe = s.ea.safe ∧ t.ea.kind = s.ea.kind ∧ t.ea.id = s.ea.id ∧
    t.ea.num = s.ea.num ∧ t.ea.time = s.ea.time ∧ t.ea.ignoreTo = s.ea.ignoreTo
  | .easyAllCfg => t.ea.cfg = s.ea.cfg
  | .hostCmds =>
    t.host.inflight = s.host.inflight ∧ t.host.fetchSeq = s.host.fetchSeq ∧ t.host.peak = s.host.peak ∧
    t.host.lastSq = s.host.lastSq
  | .queuePairs => t.host.qps = s.host.qps
  | .contexts => t.host.ctxs = s.host.ctxs
  | .claims => t.host.claims = s.host.claims
  | .locks => t.host.locks = s.host.locks
  | .apSel => t.host.apSel = s.host.apSel
  | .apWaits => t.host.ap = s.host.ap
  | .pciCfg => t.host.pci = s.host.pci
  | .msixTable => t.host.msix = s.host.msix
  | .msixPend => t.host.msixPend = s.host.msixPend
  | .sharedFree => t.host.sharedFree = s.host.sharedFree
  | .umpHist =>
    t.ump.histOvf = s.ump.histOvf ∧ t.ump.hist = s.ump.hist ∧ t.ump.next = s.ump.next ∧
    t.ump.valid = s.ump.valid ∧ t.ump.newest = s.ump.newest ∧ t.ump.cyc = s.ump.cyc ∧
    t.ump.fresh = s.ump.fresh ∧ t.ump.hist0 = s.ump.hist0 ∧ t.ump.next0 = s.ump.next0 ∧
    t.ump.valid0 = s.ump.valid0 ∧ t.ump.ovf0 = s.ump.ovf0 ∧ t.ump.ovfSeen = s.ump.ovfSeen ∧ t.ump.sevIrq = s.ump.sevIrq
  | .umpCfg =>
    t.ump.ignored = s.ump.ignored ∧ t.ump.refused = s.ump.refused ∧ t.ump.irq = s.ump.irq ∧
    t.ump.forceDetail = s.ump.forceDetail ∧ t.ump.wireInj = s.ump.wireInj ∧ t.ump.injTo = s.ump.injTo ∧
    t.ump.halt = s.ump.halt
  | .umpSrcs => t.umpSrcs = s.umpSrcs
  | .mailbox =>
    t.bh.mbxType = s.bh.mbxType ∧ t.bh.mbxLen = s.bh.mbxLen ∧ t.bh.mbxBusy = s.bh.mbxBusy ∧
    t.bh.mbxStatus = s.bh.mbxStatus ∧ t.bh.mbxRspLen = s.bh.mbxRspLen ∧ t.bh.mbxReq = s.bh.mbxReq ∧
    t.bh.mbxRsp = s.bh.mbxRsp ∧ t.bh.mbxJob = s.bh.mbxJob
  | .bhFlash =>
    t.bh.flash = s.bh.flash ∧ t.bh.delivered = s.bh.delivered ∧ t.bh.logPtr = s.bh.logPtr ∧ t.bh.logSeq = s.bh.logSeq
  | .proposal => t.bh.proposal = s.bh.proposal
  | .policy =>
    t.bh.lifecycle = s.bh.lifecycle ∧ t.bh.keyEpoch = s.bh.keyEpoch ∧ t.bh.policySeq = s.bh.policySeq ∧
    t.bh.members = s.bh.members ∧ t.bh.recs = s.bh.recs ∧ t.bh.debugPolicy = s.bh.debugPolicy ∧
    t.bh.ownerKey = s.bh.ownerKey ∧ t.bh.updatePolicy = s.bh.updatePolicy ∧ t.bh.keysSet = s.bh.keysSet ∧
    t.bh.keyA = s.bh.keyA ∧ t.bh.keyB = s.bh.keyB
  | .firmware =>
    t.bh.slotB = s.bh.slotB ∧ t.bh.boot = s.bh.boot ∧ t.bh.fallback = s.bh.fallback ∧
    t.bh.recovery = s.bh.recovery ∧ t.bh.verified = s.bh.verified ∧ t.bh.svn = s.bh.svn
  | .failKeys => t.bh.keys = s.bh.keys ∧ t.bh.keyBits = s.bh.keyBits ∧ t.bh.keySeq = s.bh.keySeq
  | .debugLock =>
    t.bh.unlocked = s.bh.unlocked ∧ t.bh.scope = s.bh.scope ∧ t.bh.challenge = s.bh.challenge ∧
    t.bh.chalSeq = s.bh.chalSeq
  | .sensors => t.bh.temps = s.bh.temps ∧ t.bh.volts = s.bh.volts ∧ t.bh.currents = s.bh.currents
  | .eid => t.bh.eid = s.bh.eid ∧ t.bh.smbAddr = s.bh.smbAddr
  | .policyStore => t.bh.store = s.bh.store
  | .bhCore => t.bh.core = s.bh.core
  | .aonCfg => t.power.cause = s.power.cause ∧ t.power.wakeEn = s.power.wakeEn
  | .stopTimer =>
    t.power.stopAt = s.power.stopAt ∧ t.power.stoppedAt = s.power.stoppedAt ∧
    t.power.stopReq = s.power.stopReq
  | .wakeFailure => t.power.faultDrive = s.power.faultDrive ∧ t.power.wakeFailed = s.power.wakeFailed
  | .rails =>
    t.power.pwrEn = s.power.pwrEn ∧ t.power.falling = s.power.falling ∧ t.power.fallAt = s.power.fallAt ∧
    t.power.pg = s.power.pg ∧ t.power.waking = s.power.waking ∧ t.power.raisedAt = s.power.raisedAt ∧
    t.power.pgAt = s.power.pgAt ∧ t.power.booting = s.power.booting ∧ t.power.detArmed = s.power.detArmed ∧
    t.power.attempts = s.power.attempts ∧ t.power.retryAt = s.power.retryAt ∧ t.power.held = s.power.held ∧
    t.power.vaon = s.power.vaon
  | .railRegs => t.rs.refused = s.rs.refused ∧ t.rs.irq = s.rs.irq ∧ t.rs.check = s.rs.check
  | .sns => t.sns = s.sns

/-- Every part that is not listed is the same in both states. -/
def KeepsAllBut (l : Parts) (s t : State) : Prop := ∀ p, p ∉ l → p.same s t

/-- Whatever next state command i answers in whatever state, every part that is not listed is as it was. -/
def Frame (l : Parts) (i : Instr) : Prop := ∀ s t, exec i s = .next t → KeepsAllBut l s t

/-- The command of header h completes with this status and has no other effect. -/
def Refuses (s t : State) (h : Hdr) (st : Byte) : Prop := Decided t h st ∧ KeepsAllBut [.hostCmds] s t

/-- The command of queue sq and CID cid, where one is open, is decided with this status and these results (R284). -/
def Ends (s t : State) (sq : QueueId) (cid : BitVec 16) (st : Byte) (r0 r1 : Word64) : Prop :=
  ∀ c, s.cmd? sq cid = some c →
    ∃ d ∈ t.host.inflight, d.names sq cid = true ∧ d.stage = .committed ∧ d.status = st ∧ d.r0 = r0 ∧ d.r1 = r1

/-- What deciding or forwarding a queue command touches (R276, R284). -/
def cmdParts : Parts :=
  [.out, .ports, .hostCmds]

/-- What an event sent to the Umpire touches (R298 to R302, R307, R308). -/
def umpParts : Parts :=
  [.logFinished, .umpHist, .umpSrcs]

/-- What a Boathouse message and its answer touch (R312, R315, R326). -/
def mbxParts : Parts :=
  [.out, .ports, .hostCmds, .mailbox, .proposal, .policyStore, .bhCore]

/-- What an entry of the Boathouse log touches (R316, log entry 23). -/
def bhLogParts : Parts :=
  [.freeCount, .bhFlash]

/-- What the end or hold of a heat touches (R105, R149, R277). -/
def haltParts : Parts :=
  [.modeState, .modeSeen, .tsets, .engines, .captureQueue, .calLanes, .skew, .hostCmds]

/-- What entering SAFE adds to it (R50, R262, R338). -/
def safeParts : Parts :=
    [.out, .modeState, .modeSeen, .lanes, .chans, .tsets, .taps, .engines, .regions, .captureQueue, .groups,
    .logFinished, .surveyState, .calWaits, .calLanes, .skew, .ports, .easyAll, .hostCmds, .claims, .umpHist,
    .umpSrcs]

/-- What the stroke and role of a device touch, with what it keeps by regatta time (R249, R250, R257, R259). -/
def strokeParts : Parts :=
    [.out, .lanes, .chans, .engines, .flagBits, .flagPend, .pins, .tims, .reference, .groups, .trigOut, .acqs,
    .logFinished, .logStream, .calLanes, .ezSurvey, .catchState, .strokeState, .roleState, .gridState, .ordered,
    .ports, .umpHist, .umpSrcs]

/-- What relaying an event flit touches (R241 to R243). -/
def ezEventParts : Parts :=
  [.out, .logFinished, .ezErrors, .ports, .umpHist, .umpSrcs]

/-- What an entry of a link can touch: resolution goes on to the next PLAY-class entry and its first cycle, and an effect of
the link may end the heat or assert Easy-All (R83, R84, R101). -/
def linkParts : Parts :=
    [.out, .modeState, .modeSeen, .lanes, .chans, .tsets, .acts, .taps, .engines, .flagPend, .regions,
    .fcErrors, .geoms, .captureQueue, .tims, .groups, .trgErrors, .logFinished, .surveyState, .calWaits,
    .calLanes, .skew, .ordered, .ports, .easyAll, .hostCmds, .claims, .umpHist, .umpSrcs]

/-- What a reset of the device leaves as it is: the queue, the clock, what was sent, the sampled balls, the policy store and the
rail-sense logic (R315, R346). -/
def resetKeeps : Parts :=
  [.pending, .now, .out, .pins, .policyStore, .railRegs, .sns]

/-- Every part of the list is the same in both states. -/
def Keeps (l : Parts) (s t : State) : Prop := ∀ p ∈ l, p.same s t

/-- Whatever next state command i answers in whatever state, every listed part is as it was. -/
def FrameKeeps (l : Parts) (i : Instr) : Prop := ∀ s t, exec i s = .next t → Keeps l s t

/-- Command i leaves every lane, channel and acquisition unit outside lane k as it was. -/
def OneLane (k : Nat) (i : Instr) : Prop := ∀ s t, exec i s = .next t →
  (∀ j, j ≠ k → t.lane j = s.lane j ∧ t.acq j = s.acq j) ∧ ∀ c, c / 16 ≠ k → t.chan c = s.chan c

/-- Command i leaves every channel but c as it was. -/
def OneChan (c : Nat) (i : Instr) : Prop := ∀ s t, exec i s = .next t → ∀ d, d ≠ c → t.chan d = s.chan d

/-- Command i leaves every engine but e as it was. -/
def OneEngine (e : Nat) (i : Instr) : Prop := ∀ s t, exec i s = .next t → ∀ j, j ≠ e → t.eng j = s.eng j

/-- Command i leaves every region but the one of index n as it was. -/
def OneRegion (n : Nat) (i : Instr) : Prop := ∀ s t, exec i s = .next t → ∀ j, j ≠ n → t.region j = s.region j

/-- Command i leaves every TIM unit but u as it was. -/
def OneTim (u : Nat) (i : Instr) : Prop := ∀ s t, exec i s = .next t → ∀ j, j ≠ u → t.tim j = s.tim j

/-- Command i leaves every trigger group but g as it was. -/
def OneGroup (g : Nat) (i : Instr) : Prop := ∀ s t, exec i s = .next t → ∀ j, j ≠ g → t.group j = s.group j

/-- Command i leaves every acquisition unit but k as it was. -/
def OneAcq (k : Nat) (i : Instr) : Prop := ∀ s t, exec i s = .next t → ∀ j, j ≠ k → t.acq j = s.acq j

/-- Command i leaves the calibration of every lane but k as it was. -/
def OneCalLane (k : Nat) (i : Instr) : Prop := ∀ s t, exec i s = .next t → ∀ j, j ≠ k → t.calLane j = s.calLane j

/-- Command i leaves every Umpire source but n as it was. -/
def OneSource (n : Nat) (i : Instr) : Prop := ∀ s t, exec i s = .next t → ∀ j, j ≠ n → t.src j = s.src j

/-- Command i leaves every queue pair but q as it was. -/
def OnePair (q : Nat) (i : Instr) : Prop := ∀ s t, exec i s = .next t → ∀ j, j ≠ q → t.qp j = s.qp j

/-- Command i leaves every lock but n as it was. -/
def OneLock (n : Nat) (i : Instr) : Prop := ∀ s t, exec i s = .next t → ∀ j, j ≠ n → t.lock j = s.lock j

/-- Command i leaves every rail-sense comparator but n as it was. -/
def OneComparator (n : Nat) (i : Instr) : Prop := ∀ s t, exec i s = .next t → ∀ j, j ≠ n → t.sn j = s.sn j

/-- The byte at address a of region j. -/
def State.memByte (s : State) (j a : Nat) : Byte := Memory.read 0 (s.region j).mem a

/-- The bytes of a window that a capture write covers: the first and the one past the last. -/
def CapData.span (d : CapData) : Nat × Nat :=
  match d with
  | .bitmap word _ _ => (32 * word, 32 * word + 32)
  | .bytes a l => (a, a + l.length)

/-- The body of a Boathouse message: a mailbox message's is the one that GO took (R334). -/
def msgBody (src : MsgSrc) (body : List Byte) (s : State) : List Byte :=
  match src with
  | .mailbox => s.bh.mbxJob.2
  | _ => body

/-- The flash byte at address a. -/
def State.flashByte (s : State) (a : Nat) : Byte := Memory.read erased s.bh.flash a

/-- What the next entry of the Boathouse log writes: its 64 bytes, and where it fills its sector the whole of the next one, which is
erased (R316). -/
def State.logSpan (s : State) (a : Nat) : Prop :=
  let p := (s.bh.logPtr + 1) % logEntries
  (logBase + 64 * s.bh.logPtr ≤ a ∧ a < logBase + 64 * s.bh.logPtr + 64) ∨
  (p % sectorEntries = 0 ∧ logBase + 64 * p ≤ a ∧ a < logBase + 64 * p + sectorBytes)

/-- The keys of a table rise. -/
abbrev KeysRise {α : Type} (m : SMap α) : Prop := (m.map (·.1)).Pairwise (· < ·)

/-- The sender of a Boathouse message that came through a queue. -/
def msgHdr? : MsgSrc → Option Hdr
  | .queue h _ _ => some h
  | _ => none

/-- The header of a queue command (R275). -/
def hdr? (i : Instr) : Option Hdr :=
  match i with
  | .acqSetup h _ _ _ _ _ _ _ _ _ => some h
  | .getInfo src _ => msgHdr? src
  | .readSensors src _ => msgHdr? src
  | .readLog src _ => msgHdr? src
  | .updateErase src _ => msgHdr? src
  | .updateWrite src _ => msgHdr? src
  | .updateVerify src _ => msgHdr? src
  | .updateActivate src _ => msgHdr? src
  | .propose src _ => msgHdr? src
  | .sign src _ => msgHdr? src
  | .commit src _ => msgHdr? src
  | .cancel src _ => msgHdr? src
  | .getProposal src _ => msgHdr? src
  | .debugChallenge src _ => msgHdr? src
  | .debugResponse src _ => msgHdr? src
  | .debugLock src _ => msgHdr? src
  | .setPartyKeys src _ => msgHdr? src
  | .calRequest h _ => some h
  | .failstoreRead h _ _ _ _ => some h
  | .failstoreMerge h _ _ => some h
  | .failstoreFree h _ => some h
  | .levelWrite h _ _ => some h
  | .heatStart h _ _ _ => some h
  | .heatHold h _ => some h
  | .heatResume h _ => some h
  | .crewMap h _ _ _ => some h
  | .claim h _ _ _ => some h
  | .release h _ _ _ => some h
  | .lock h _ _ => some h
  | .unlock h _ _ => some h
  | .barrier h => some h
  | .abort h _ _ => some h
  | .tableLoad h _ _ _ _ _ => some h
  | .tablePatch h _ _ _ _ _ => some h
  | .segmentWrite h _ _ _ _ => some h
  | .modeSet h _ => some h
  | .regionAlloc h _ _ _ _ _ => some h
  | .regionFree h _ => some h
  | .regionRead h _ _ _ => some h
  | .regionWrite h _ _ _ _ => some h
  | .timSetup h _ _ _ _ _ _ _ => some h
  | .tsetWrite h _ _ _ _ _ _ => some h
  | _ => none

/-- The events that act in Stop: those of the always-on domain (R341 to R349). -/
def actsInStop (i : Instr) : Bool :=
  match i with
  | .vaonLoss
  | .wakeDetected ..
  | .wakeDetectorArmed ..
  | .pgAsserted ..
  | .powerGroupEnable
  | .pllLocked
  | .pgTimeout
  | .pllLockTimeout
  | .wakeRetry
  | .railSenseEvent ..
  | .unsettledOutputSettles ..
  | .powerOnReset .. => true
  | _ => false

/-- The writes that go to a BAR0 offset outside the GBL_, BH_ and AON_ windows, or to BAR2 (R268, R270). -/
def waitsReady (i : Instr) : Bool :=
  match i with
  | .acqArm ..
  | .acqStart ..
  | .acqStop ..
  | .calReq ..
  | .calDtWrite ..
  | .fcCntClr ..
  | .fcDrainReq ..
  | .fcGeomWrite ..
  | .coxCtrlReset ..
  | .coxDflagsSet ..
  | .coxDflagsClr ..
  | .coxRflagsSet ..
  | .coxRflagsClr ..
  | .coxTblSelWrite ..
  | .coxCfgWrite ..
  | .lnLvlCommit ..
  | .adcStart ..
  | .lnEvtStatusClear ..
  | .hqSqTailWrite ..
  | .hqCqHeadWrite ..
  | .hqSqCfgWrite ..
  | .hqCqCfgWrite ..
  | .hqSqRestart ..
  | .hqCtxReset ..
  | .coxBindWrite ..
  | .patternConfigWrite ..
  | .rsSnsThrWrite ..
  | .rsCheck ..
  | .ezCtrlEnum
  | .ezCtrlSurvey
  | .ezCtrlTakeover
  | .ezRoleGo ..
  | .ezStrokeWrite ..
  | .easyallRaise
  | .easyallClear
  | .bar2Write ..
  | .timArm ..
  | .timDisarm ..
  | .timConfigWrite ..
  | .lnActCtrlWrite ..
  | .lnTsrSelWrite ..
  | .lnTapSelWrite ..
  | .trgGrpArm ..
  | .trgGrpDisarm ..
  | .trgGrpCfgWrite ..
  | .trgOutCfgWrite ..
  | .umpSrcClear ..
  | .umpSrcForce ..
  | .umpWireInj ..
  | .umpSrcConfigWrite .. => true
  | _ => false

/-- A comparator's registers hold values that RS_SNSn_THR and RS_SNSn_CFG can hold (R347, R351). -/
abbrev SnsOk (r : Sns) : Prop :=
  fldN r.thr 0 12 ≤ fldN r.thr 16 12 ∧ fldN r.thr 16 12 ≤ 4000 ∧ r.thr &&& 0xF000F000 = 0 ∧ r.cfg &&& 0xFFFFFF00 = 0

/-- The policy store holds the policy in force (R315). -/
def PolicyStored (s : State) : Prop := s.bh.store.read Policy.bytes = s.bh.policy

/-- The lifecycle is FACTORY, SECURED or RETURNED, the policy store holds the policy in force, and a pending LIFECYCLE proposal
asks for the next lifecycle (R315, R327, R329). -/
def LifecycleOk (s : State) : Prop :=
  s.bh.lifecycle.toNat ≤ 2 ∧ PolicyStored s ∧
  ∀ p, s.bh.proposal = some p → p.kind = 5 → leNat p.body = s.bh.lifecycle.toNat + 1 ∧ leNat p.body ≤ 2

/-- The tables of regions and Fail Store objects have rising keys, and every byte memory of the device has its canonical
form. -/
def MemoriesOk (s : State) : Prop :=
  KeysRise s.regions ∧ (∀ x ∈ s.regions, Memory.wf 0 x.2.mem = true) ∧
  KeysRise s.objs ∧ (∀ x ∈ s.objs, KeysRise x.2.blocks ∧ ∀ b ∈ x.2.blocks, Memory.wf 0 b.2.data = true) ∧
  Memory.wf erased s.bh.flash = true ∧ Memory.wf 0 s.bh.mbxReq = true ∧ Memory.wf 0 s.bh.mbxRsp = true ∧
  Memory.wf 0 s.bh.core.sram = true

end Sys2Proof.Machine
end

