-- ==== Sys2Proof/Certificates/Slice0/Obligations.lean ====
section
/-! DEFINITION. The statements for the provers. The first part, in namespace Completes, states of every command where it answers
a next state and what that state holds; the obligations follow. -/

namespace Sys2Proof.Machine.Completes

/-! Channels, lanes and timing sets (R33 to R47, R69 to R79). -/

/-- A commit whose checks all pass copies every staged half of the masked channels, clears their SAFE_OFF, and is counted; BUSY
stays 1 or becomes 1 where a value with a settling time changes. A commit of no channel does nothing (R41, R43, R44, R50).
The model's choice, no rule of the spec, where the spec leaves open: log entry 110. -/
def lnLvlCommit : Prop := ∀ lane v s, HostUp s →
  s.commitCheck lane.val (fld v 0 16) (fun c => (s.chan c).staged) = none →
  Answers (.lnLvlCommit lane v) s fun t =>
    if (fld v 0 16 : BitVec 16) = 0 then t = s
    else
      (∀ j < 16, bit v j = true → (t.chan (16 * lane.val + j)).active = (s.chan (16 * lane.val + j)).staged ∧
        (t.chan (16 * lane.val + j)).staged = (s.chan (16 * lane.val + j)).staged ∧
        (t.chan (16 * lane.val + j)).safeOff = false) ∧
      (∀ j < 16, bit v j = false → t.chan (16 * lane.val + j) = s.chan (16 * lane.val + j)) ∧
      (t.lane lane.val).lvlRefused = false ∧ (t.lane lane.val).lvlReason = 0 ∧ (t.lane lane.val).lvlChannel = 0 ∧
      (t.lane lane.val).lvlSeq = (s.lane lane.val).lvlSeq + 1 ∧
      ((t.lane lane.val).lvlBusy = true ↔ (s.lane lane.val).lvlBusy = true ∨ ∃ j < 16, bit v j = true ∧
        FeSet.settles (s.chan (16 * lane.val + j)).active (s.chan (16 * lane.val + j)).staged = true)

/-- LEVEL_WRITE of a lane that does not exist or a reserved value completes BAD_COMMAND; of no channel, OK; with a channel that
another holder claims, CLAIMED; with a failing check, the status the mode gives and the reason and channel in DETAIL, nothing
applied; else OK, and the channels take the values it carries (R44, R277, R291).
The model's choice, no rule of the spec, where the spec leaves open: log entries 51 and 110. -/
def levelWrite : Prop := ∀ h lane f s, Serves s (.levelWrite h lane f) h anyRec →
  Answers (.levelWrite h lane f) s fun t =>
    if 16 ≤ lane.toNat ∨ fldN f.sel 13 3 ≠ 0 then Refuses s t h stBadCommand
    else if f.chmask = 0 then Refuses s t h stOk
    else if s.chanClaimed lane.toNat (ctxOfQueue h.sq) f.chmask = true then Refuses s t h stClaimed
    else
      (t.lane lane.toNat).lvlSeq = (s.lane lane.toNat).lvlSeq + 1 ∧
      match s.commitCheck lane.toNat f.chmask (fun c => levelSet (s.chan c).active f) with
      | none =>
        Decided t h stOk ∧ (t.lane lane.toNat).lvlRefused = false ∧
        ∀ j < 16, (t.chan (16 * lane.toNat + j)).active =
          if bit f.chmask j then levelSet (s.chan (16 * lane.toNat + j)).active f else (s.chan (16 * lane.toNat + j)).active
      | some (j, r) =>
        Result t h (if s.mode = .safe then stDeviceSafe else if s.mode = .survey then stNotReady else stBadCommand)
          (placeN 32 0 r ||| placeN 32 4 j) 0 0 ∧
        (t.lane lane.toNat).lvlRefused = true ∧ KeepsAllBut [.hostCmds, .lanes] s t

/-- BUSY returns to 0, and nothing else of the lane changes (R44). -/
def dacSettled : Prop := ∀ lane s, Powered s →
  Answers (.dacSettled lane) s fun t => t.lane lane.val = { s.lane lane.val with lvlBusy := false }

/-- A write of LN_ADC_CTRL sets MUX and AVG. With START on a free ADC a reserved MUX and then a busy acquisition unit make no
conversion, and else a measurement of the input that MUX names begins (R36 to R38, R52).
The model's choice, no rule of the spec, where the spec leaves open: log entry 10. -/
def adcStart : Prop := ∀ lane v s, HostUp s →
  Answers (.adcStart lane v) s fun t =>
    let l := s.lane lane.val
    let u := t.lane lane.val
    u.adcMux = fld v 0 5 ∧ u.adcAvg = fld v 8 4 ∧
    if bit v 31 = false ∨ l.adcBusy = true then
      u.adcBusy = l.adcBusy ∧ u.adcValid = l.adcValid ∧ u.adcRun = l.adcRun ∧ u.adcSeq = l.adcSeq ∧ u.adcStat = l.adcStat
    else if 18 ≤ fldN v 0 5 then
      u.adcBusy = false ∧ u.adcValid = true ∧ u.adcStat = 3 ∧ u.adcSeq = l.adcSeq + 1
    else if (s.acq lane.val).st ≠ .idle then
      u.adcBusy = false ∧ u.adcValid = true ∧ u.adcStat = 1 ∧ u.adcSeq = l.adcSeq + 1
    else u.adcBusy = true ∧ u.adcValid = false ∧ u.adcRun = fld v 0 5 ∧ u.adcRunAvg = fld v 8 4 ∧ u.adcSeq = l.adcSeq

/-- A finished measurement posts its result with VALID: the mean of its samples, less the two discarded after a change of input
(R37). -/
def adcMeasurementDone : Prop := ∀ lane samples raw ov s, Powered s → (s.lane lane.val).adcBusy = true →
  samples.length = (s.lane lane.val).adcSkip + (s.lane lane.val).adcCount →
  Answers (.adcMeasurementDone lane samples raw ov) s fun t =>
    (t.lane lane.val).adcBusy = false ∧ (t.lane lane.val).adcValid = true ∧ (t.lane lane.val).adcRaw = raw ∧
    (t.lane lane.val).adcValue = BitVec.ofInt 32 (adcMean (samples.drop (s.lane lane.val).adcSkip)) ∧
    (t.lane lane.val).adcSeq = (s.lane lane.val).adcSeq + 1 ∧ (t.lane lane.val).adcStat = (if ov then 2 else 0) ∧
    (t.lane lane.val).adcPrev = (s.lane lane.val).adcRun

/-- The comparator judges the new pin voltage. A state it enters fires, at the top of the tree, the enabled groups that have it as
their window source, at the start of the tick; with no new state no group changes (R33, R193).
The model's choice, no rule of the spec, where the spec leaves open: log entries 18, 60 and 109. -/
def comparatorEdge : Prop := ∀ ch fine uv s, Powered s →
  let fu := s.now * 512 + fine.val
  let new := ({ s.chan ch.val with inputUv := uv } : Chan).judgeAt fu
  Answers (.comparatorEdge ch fine uv) s fun t =>
    t.chan ch.val = new ∧
    (new.cmp = (s.chan ch.val).cmp → ∀ g, t.group g = s.group g) ∧
    (new.cmp ≠ (s.chan ch.val).cmp → s.isTop = true → ∀ g < 16, (s.group g).st ≠ .disabled →
      bit (s.group g).cfg 26 = true → fldN (s.group g).win 0 8 = ch.val → fldN (s.group g).cfg 28 2 = new.cmp.code →
      (⟨s.regTickOf fu, 0, s.ez.id.toNat, 2, 0⟩ : FireRec) ∈ (t.group g).fires)

/-- A driver overcurrent latches OC, trips the channels with OC_TRIP = 1 and no other, and where a latch was 0 is an event of
source k of the Umpire that names the new channels and whether one of them tripped (R46 to R48). -/
def driverOvercurrent : Prop := ∀ lane mask s, Powered s →
  let new := mask &&& ~~~(s.lane lane.val).evtOc
  let trips := mask &&& s.laneMask lane.val fun c => c.active.ocTrip
  Answers (.driverOvercurrent lane mask) s fun t =>
    (t.lane lane.val).evtOc = (s.lane lane.val).evtOc ||| mask ∧
    (∀ j < 16, (t.chan (16 * lane.val + j)).tripped =
      ((s.chan (16 * lane.val + j)).tripped || (bit mask j && (s.chan (16 * lane.val + j)).active.ocTrip))) ∧
    (∀ j < 16, bit mask j = true → (s.chan (16 * lane.val + j)).active.ocTrip = true →
      (t.chan (16 * lane.val + j)).output = .off) ∧
    (new ≠ 0 → Reported s t lane.val (feDetail new 0 (new &&& trips ≠ 0))) ∧
    (new = 0 → t.src lane.val = s.src lane.val)

/-- A PMU overcurrent of connected channels in FVMI latches their OC and current limit, disconnects nothing, and where a latch was
0 is an event of source k of the Umpire. In SAFE, where every PMU is disconnected, nothing changes (R46 to R48, R50). -/
def pmuOvercurrent : Prop := ∀ lane mask s, Powered s →
  let m := mask &&& s.laneMask lane.val fun c => c.active.pathCode = 2 && !c.active.fimv
  let new := m &&& ~~~(s.lane lane.val).evtOc
  Answers (.pmuOvercurrent lane mask) s fun t =>
    if s.mode = .safe then t = s
    else
      (t.lane lane.val).evtOc = (s.lane lane.val).evtOc ||| m ∧
      (∀ j < 16, t.chan (16 * lane.val + j) = { s.chan (16 * lane.val + j) with
        curLimit := (s.chan (16 * lane.val + j)).curLimit || bit m j }) ∧
      (new ≠ 0 → Reported s t lane.val (feDetail new 1 false)) ∧
      (new = 0 → t.src lane.val = s.src lane.val)

/-- A clamp event of channels with their clamps enabled latches CLAMP, and where a latch was 0 is an event of source 16 + k of the
Umpire. In SAFE nothing changes (R46, R48, R50). -/
def clampEvent : Prop := ∀ lane mask s, Powered s →
  let m := mask &&& s.laneMask lane.val fun c => c.active.clampEn
  let new := m &&& ~~~(s.lane lane.val).evtClamp
  Answers (.clampEvent lane mask) s fun t =>
    if s.mode = .safe then t = s
    else
      (t.lane lane.val).evtClamp = (s.lane lane.val).evtClamp ||| m ∧ (t.lane lane.val).evtOc = (s.lane lane.val).evtOc ∧
      (new ≠ 0 → Reported s t (16 + lane.val) (feDetail new 2 false)) ∧
      (new = 0 → t.src (16 + lane.val) = s.src (16 + lane.val))

/-- A clear of OC and CLAMP bits. A channel whose OC bit it clears is tripped and limited no longer, so that its driver puts out
what it drives while its path is PE; another channel of the lane stays as it is (R47).
The model's choice, no rule of the spec, where the spec leaves open: log entry 18. -/
def lnEvtStatusClear : Prop := ∀ lane v s, HostUp s →
  Answers (.lnEvtStatusClear lane v) s fun t =>
    (t.lane lane.val).evtOc = w1c (s.lane lane.val).evtOc (fld v 0 16) ∧
    (t.lane lane.val).evtClamp = w1c (s.lane lane.val).evtClamp (fld v 16 16) ∧
    ∀ j < 16,
      let c := s.chan (16 * lane.val + j)
      let d := t.chan (16 * lane.val + j)
      if bit v j = true ∧ bit (s.lane lane.val).evtOc j = true then
        d.tripped = false ∧ d.curLimit = false ∧ d.active = c.active ∧
        d.output = (if c.active.pathCode = 1 then c.drive else .off)
      else d = c

/-- COMPLIANCE follows the limit of a connected PMU in FIMV and is 0 on any other channel; nothing else of it changes (R35). -/
def pmuCompliance : Prop := ∀ ch limit s, Powered s →
  Answers (.pmuCompliance ch limit) s fun t => t.chan ch.val = { s.chan ch.val with
    compliance := limit && decide ((s.chan ch.val).active.pathCode = 2) && (s.chan ch.val).active.fimv }

/-- TSET_WRITE with a field that R277 does not allow completes BAD_COMMAND, in BOOT NOT_READY, with a failing rule BAD_COMMAND and
the lowest one in DETAIL, where a rated heat forbids the period REFUSED_RATING, and otherwise OK: at once while the crew is
not RUNNING, the set written on the whole crew and counted; in a RUNNING heat it waits for the next granule boundary (R69 to
R71, R150). -/
def tsetWrite : Prop := ∀ h engine tset mux n period recs s, Serves s (.tsetWrite h engine tset mux n period recs)
    h (engineRec engine) →
  Answers (.tsetWrite h engine tset mux n period recs) s fun t =>
    if 128 ≤ engine.toNat ∨ 4 ≤ mux.toNat ∨ 256 < n.toNat ∨ n.toNat ≠ recs.length ∨ 2 ^ 40 ≤ period.toNat then
      Refuses s t h stBadCommand
    else if s.mode = .boot then Refuses s t h stNotReady
    else
      match s.tsetRefusal engine.toNat tset.toNat (fld mux 0 2) (fld period 0 40) recs with
      | some (c, f) =>
        Result t h stBadCommand (tsetDetail c tset.toNat f) (if f.rule = 8 then BitVec.ofNat 64 f.other else 0) 0 ∧
        KeepsAllBut [.hostCmds] s t
      | none =>
        if s.tsetRated engine.toNat (fld period 0 40) = true then Refuses s t h stRefusedRating
        else if (s.eng engine.toNat).st = .running then
          Waits t h ∧ KeepsAllBut [.hostCmds, .engines] s t ∧
          ∀ x, (s.eng engine.toNat).heat = some x → (t.eng engine.toNat).heat = some { x with
            pendTsets := x.pendTsets ++ [⟨s.rnow, h.sq, h.cid, tset.toNat, fld mux 0 2, fld period 0 40, recs⟩] }
        else
          Decided t h stOk ∧ ∀ c ∈ (s.eng engine.toNat).chans,
            let old := s.tset (256 * c + tset.toNat)
            t.tset (256 * c + tset.toNat) =
              { tsetResult old c (fld mux 0 2) (fld period 0 40) recs with wseq := old.wseq + 1 }

/-- At the crew's granule boundary the writes accepted by then take effect and the others go on waiting. With one write waiting:
due, its set changes on the whole crew and it completes OK; not due, no set changes (R71). -/
def tsetTakesEffect : Prop := ∀ e s h p, Powered s → (s.eng e.val).heat = some h → h.pendTsets = [p] →
  Answers (.tsetTakesEffect e) s fun t =>
    if h.tsetDue p = true then
      (t.eng e.val).heat = some { h with pendTsets := [] } ∧
      (∀ c ∈ (s.eng e.val).chans,
        let old := s.tset (256 * c + p.tset)
        t.tset (256 * c + p.tset) = { tsetResult old c p.mux p.period p.recs with wseq := old.wseq + 1 }) ∧
      ∀ c, s.cmd? p.sq p.cid = some c →
        ∃ d ∈ t.host.inflight, d.names p.sq p.cid = true ∧ d.stage = .committed ∧ d.status = stOk
    else (t.eng e.val).heat = some h ∧ ∀ i, t.tset i = s.tset i

/-- A window that ends gives the lane's count and measured level from the transitions that fell in it, and the channels and the
spare that belong to no RUNNING crew apply that level; before its 64 ticks have passed nothing changes (R75, R76). -/
def activityWindowEnd : Prop := ∀ lane s, Powered s →
  let w := s.now / 64 - 1
  let n := min 8192 (SMap.get (fun _ => 0) (s.lane lane.val).actOpen w + s.edgesInPlay lane.val w)
  Answers (.activityWindowEnd lane) s fun t =>
    if s.now < (s.lane lane.val).actEnd + 64 then t = s
    else
      (t.lane lane.val).actCount = BitVec.ofNat 14 n ∧ (t.lane lane.val).actLevel = BitVec.ofNat 3 (measuredLevel n) ∧
      (t.lane lane.val).actEnd = 64 * (w + 1) ∧ (∀ e ∈ (t.lane lane.val).actOpen, w < e.1) ∧
      ∀ j < 17, (t.act (17 * lane.val + j)).applied =
        if s.inRunning lane.val j then (s.act (17 * lane.val + j)).applied else BitVec.ofNat 3 (measuredLevel n)

/-- Outside a heat of the lane the enable takes the value written; in one the write is ignored (R78). -/
def lnActCtrlWrite : Prop := ∀ lane v s, HostUp s →
  Answers (.lnActCtrlWrite lane v) s fun t =>
    if s.laneInHeat lane.val = true then t = s else t.lane lane.val = { s.lane lane.val with actEn := bit v 0 }

/-- A write takes the snapshot of the timing set it names (R79). -/
def lnTsrSelWrite : Prop := ∀ lane v s, HostUp s →
  Answers (.lnTsrSelWrite lane v) s fun t => t.lane lane.val = { s.lane lane.val with
    tsrCh := fld v 0 4
    tsrTset := fld v 8 8
    tsrSnap := s.tset (256 * (16 * lane.val + fldN v 0 4) + fldN v 8 8) }

/-- A write takes the snapshot of the tap-table entry it names, and of its sequence: 0 for CH 17 to 31 (R79). -/
def lnTapSelWrite : Prop := ∀ lane v s, HostUp s →
  let table := s.tap (2 * (17 * lane.val + fldN v 0 5) + (bit v 8).toNat)
  Answers (.lnTapSelWrite lane v) s fun t =>
    (t.lane lane.val).tapCh = fld v 0 5 ∧ (t.lane lane.val).tapPath = bit v 8 ∧ (t.lane lane.val).tapFine = fld v 16 6 ∧
    (t.lane lane.val).tapSnap = (if 17 ≤ fldN v 0 5 then 0 else table.taps.getD (fldN v 16 6) 0) ∧
    (t.lane lane.val).tapSeq = (if 17 ≤ fldN v 0 5 then 0 else table.seq)

end Sys2Proof.Machine.Completes

namespace Sys2Proof.Machine.Completes

/-! The Cox engines (R80 to R107). -/

/-- The fault that entry x raises as the next of link w, and the address recorded with it: a program counter past the table, an
entry that cannot be read, or the lowest code that applies (R101).
The model's choice, no rule of the spec, where the spec leaves open: log entries 73 and 112. -/
def faultOf (s : State) (e : EngineId) (h : Heat) (w : LinkWork) (x : Entry) : Option (Nat × Nat) :=
  if 4096 ≤ w.pc then some (0x06, 0xFFF)
  else if (s.eng e.val).ecc.contains w.pc then some (0x11, w.pc)
  else
    match s.entryFaults e.val (s.eng e.val) h w x with
    | [] => none
    | c :: cs => some (cs.foldl min c, w.pc)

/-- The heat h of engine e resolves link w at a decision point whose instant has come. -/
abbrev Stands (s : State) (e : EngineId) (h : Heat) (w : LinkWork) : Prop :=
  Powered s ∧ (s.eng e.val).heat = some h ∧ h.link = some w ∧ s.atDecision (s.eng e.val) h = true

/-- A COUPLED_PEER fault is due where heat h stands (R102). -/
abbrev PeerDue (s : State) (e : EngineId) (h : Heat) : Prop := s.peerFaultDue (s.eng e.val) h = true

/-- Entry x comes next in the link w that the heat h of engine e resolves, no fault code of R101 applies to it, and no fault of
another member is due. -/
abbrev Ready (s : State) (e : EngineId) (h : Heat) (w : LinkWork) (x : Entry) : Prop :=
  Stands s e h w ∧ faultOf s e h w x = none ∧ ¬ PeerDue s e h

/-- The link with a link entry counted (R84). -/
def counted (w : LinkWork) : LinkWork :=
  { w with count := w.count + 1, seen := w.pc :: w.seen, regs := w.regs.note w.pc }

/-- The link with its PLAY-class entry taken: that is no link entry (R84). -/
def taken (w : LinkWork) : LinkWork := { w with seen := w.pc :: w.seen, regs := w.regs.note w.pc }

/-- The heat of the engine resolves link w, and nothing else of the engine has changed. -/
def Resolving (s t : State) (e : EngineId) (h : Heat) (w : LinkWork) : Prop :=
  t.eng e.val = { s.eng e.val with heat := some { h with link := some w } }

/-- The engine has faulted with this code at this address: not resumable, its EPOCH advanced, and a heat not yet ended ends
with that fault (R101, R102). -/
def Faulted (s t : State) (e : EngineId) (code addr : Nat) : Prop :=
  (t.eng e.val).st = .faulted ∧ (t.eng e.val).faultCode = BitVec.ofNat 8 code ∧
  (t.eng e.val).faultAddr = BitVec.ofNat 12 addr ∧ (t.eng e.val).pc = BitVec.ofNat 12 addr ∧
  (t.eng e.val).epoch = (s.eng e.val).epoch + 1 ∧ (t.eng e.val).resumable = false ∧ (t.eng e.val).launchQ = [] ∧
  ∀ h, (s.eng e.val).heat = some h → h.ended = none → ∃ g, (t.eng e.val).heat = some g ∧ g.phase = .ended ∧
    g.ended = some ⟨stEngineFault, 0, BitVec.ofNat 8 code, BitVec.ofNat 12 addr⟩

/-- A PLAY-class entry has begun at played time d: COX_PC names it, and its first cycle comes next (R83, R107). -/
def Begun (t : State) (e : EngineId) (d : Nat) (k : PlayKind) (addr : Nat) (x : Entry) : Prop :=
  (t.eng e.val).pc = BitVec.ofNat 12 addr ∧ (t.eng e.val).st = .running ∧
  ∃ g, (t.eng e.val).heat = some g ∧ g.phase = .cycling ∧ g.play = some ⟨k, addr, x, d, 0, 0, 0⟩

/-- The heat has halted with this tag (R86, R101). -/
def Halts (t : State) (e : EngineId) (addr : Nat) (tag : Word32) : Prop :=
  (t.eng e.val).st = .halted ∧ (t.eng e.val).pc = BitVec.ofNat 12 addr ∧
  ∃ g, (t.eng e.val).heat = some g ∧ g.phase = .ended ∧ g.ended = some ⟨stOk, tag, 0, 0⟩

/-- The engine is left as in u, which an effect of its own link has stopped or held: only entries noted unreadable may differ. -/
def LeftAs (t : State) (e : EngineId) (u : State) : Prop :=
  t.eng e.val = { u.eng e.val with ecc := (t.eng e.val).ecc }

/-- What a resolved link leaves of a heat h: its effects take place first, and where they do not stop the engine its PLAY-class
entry begins; a HALT taken ends a heat that its effects have not ended, also where they have held it; a fault has none of the link's
effects. A fault of the link comes before the one of another member, and that before all else (R83, R86, R101, R102, R105). -/
def Resolved (s t : State) (e : EngineId) (h : Heat) (o : LinkOut) : Prop :=
  let u (w : LinkWork) := s.applyLink e.val h.next ((s.eng e.val).sample h.next) w
  match o with
  | .go _ => False
  | .fault _ code addr => Faulted s t e code addr
  | .play w k addr x =>
    if s.peerFaultDue (s.eng e.val) h = true then Faulted s t e 0x12 (s.eng e.val).pc.toNat
    else if (u w).playsOn e.val then Begun t e h.next k addr x else LeftAs t e (u w)
  | .halt w addr tag =>
    if s.peerFaultDue (s.eng e.val) h = true then Faulted s t e 0x12 (s.eng e.val).pc.toNat
    else if (u w).mayHalt e.val then Halts t e addr tag else LeftAs t e (u w)

/-- Entry row i, which runs entry x, faults the engine where a fault code applies, and with COUPLED_PEER where none does and the
fault of another member is due (R101, R102, R263). -/
def Faulty (i : Instr) (e : EngineId) (x : Entry) : Prop :=
  (∀ s h w code addr, Stands s e h w → faultOf s e h w x = some (code, addr) → Answers i s fun t => Faulted s t e code addr) ∧
  (∀ s h w, Stands s e h w → faultOf s e h w x = none → PeerDue s e h →
    Answers i s fun t => Faulted s t e 0x12 (s.eng e.val).pc.toNat ∨ Faulted s t e 0x12 w.pc)

/-- Entry row i begins a PLAY-class entry x after the effects of the earlier entries of its link; with none of them the engine
plays on (R83, R86). -/
def Plays (i : Instr) (e : EngineId) (k : PlayKind) (x : Entry) : Prop :=
  (∀ s h w, Ready s e h w x → w.fx = [] → Answers i s fun t => Begun t e h.next k w.pc x) ∧
  (∀ s h w, Ready s e h w x → Answers i s fun t => Resolved s t e h (.play (taken w) k w.pc x)) ∧
  Faulty i e x

/-- Entry row i takes link w to `f w` (R86). -/
def Links (i : Instr) (e : EngineId) (x : Entry) (f : LinkWork → LinkWork) : Prop :=
  (∀ s h w, Ready s e h w x → Answers i s fun t => Resolving s t e h (f (counted w))) ∧ Faulty i e x

/-- What a link whose one effect outside the engine is x does with it at its decision point, where the PLAY that ends the link is
taken: P holds of the state before, the heat and the state after (R83). -/
def Applies (e : EngineId) (x : LinkFx) (P : State → Heat → State → Prop) : Prop :=
  ∀ seg s h w, Ready s e h w (mkEntry 0x02 0 0 0 0 0 seg) → w.fx = [x] →
    Answers (.play e seg) s fun t => P s h t

/-- The regatta time, in fu, of the decision point at which heat h stands. -/
def instant (h : Heat) : Nat := (h.rtAt h.next).toNat

/-- This device sends an ordered event (R242): to its ports toward the top, and at the top down every tree. -/
def Sends (s t : State) (typ tick : Nat) (payload : BitVec 30) : Prop :=
  ∀ p ∈ s.portsOf (if s.isTop then 2 else 1), Out.event p (evtFlit typ s.ez.id (tsOf tick) payload) ∈ t.out

/-- At a decision point the link resolves from the table: a fault of its own comes first, then one that another member has there,
else its effects; or the iteration of a MATCH that ends is judged: its segment plays again where its occurrence is not visible and
iterations are left. `ecc` is a table entry that cannot be read: an uncoupled engine meets it here, a coupled one in the links it
resolves from here on (the model's choice, log entry 137) (R83, R96, R101, R102).
The model's choice, no rule of the spec, where the spec leaves open: log entries 114 and 136. -/
def decisionPoint : Prop :=
  (∀ e ecc s h w, Stands s e h w →
    let s1 := s.noteEcc e.val ecc !(s.eng e.val).coupled
    Answers (.decisionPoint e ecc) s fun t =>
      Resolved s1 t e h (s1.runLink e.val ((s.eng e.val).sample h.next) 18 w)) ∧
  (∀ e a s h w, Stands s e h w → (s.eng e.val).coupled = false → w.pc = a.toNat →
    Answers (.decisionPoint e (some a)) s fun t => Faulted s t e 0x11 a.toNat) ∧
  (∀ e a s h w, Stands s e h w → (s.eng e.val).coupled = true →
    Answers (.decisionPoint e (some a)) s fun t => (t.eng e.val).ecc.contains a.toNat = true) ∧
  (∀ e ecc s h p, Powered s → (s.eng e.val).heat = some h → h.link = none → h.play = some p →
    s.atDecision (s.eng e.val) h = true →
    s.matchSeen (s.eng e.val) h p ((s.eng e.val).sample h.next) = some false → p.pass < (eImm p.entry).toNat →
    condLead p.entry = false →
    Answers (.decisionPoint e ecc) s fun t =>
      if s.peerFaultDue (s.eng e.val) h = true then Faulted s t e 0x12 (s.eng e.val).pc.toNat
      else ∃ b, (t.eng e.val).heat = some { h with
        phase := .cycling, prevFail := h.iterFail, iterStrobe := false, iterFail := false, iterLast := 0, begun := b }) ∧
  (∀ e ecc s h p, Powered s → (s.eng e.val).heat = some h → h.link = none → h.play = some p →
    s.atDecision (s.eng e.val) h = true →
    s.matchSeen (s.eng e.val) h p ((s.eng e.val).sample h.next) = none →
    Answers (.decisionPoint e ecc) s fun t => Faulted s t e 0x12 p.addr)

/-- NOP (R86). -/
def nop : Prop := ∀ e, Links (.nop e) e (mkEntry 0x00 0 0 0 0 0 noSeg) fun w => { w with pc := w.pc + 1 }

/-- HALT ends the heat with its tag where its condition holds, and the link goes on where it does not; a member that lacks what
its condition needs faults with COUPLED_PEER (R86, R263). -/
def halt : Prop :=
  (∀ e flg ctr imm s h w, Ready s e h w (mkEntry 0x01 0 flg ctr imm 0 noSeg) → w.fx = [] → h.ended = none →
    Answers (.halt e 0 flg ctr imm) s fun t => Halts t e w.pc imm) ∧
  (∀ e cond flg ctr imm s h w, let x := mkEntry 0x01 cond flg ctr imm 0 noSeg
    let w1 := (counted w).decFirst x
    let smp := (s.eng e.val).sample h.next
    let lead := (s.eng e.val).coupled && s.isLead (s.eng e.val)
    Ready s e h w x →
    Answers (.halt e cond flg ctr imm) s fun t =>
      match s.condRaw (s.eng e.val) h w1.regs w1.cons smp w1.leads x with
      | none => Faulted s t e 0x12 w.pc
      | some v =>
        if condInv x v then Resolved s t e h (.halt (w1.readCond lead smp x v) w.pc imm)
        else Resolving s t e h { w1.readCond lead smp x v with pc := w.pc + 1 }) ∧
  ∀ e cond flg ctr imm, Faulty (.halt e cond flg ctr imm) e (mkEntry 0x01 cond flg ctr imm 0 noSeg)

/-- PLAY (R86). -/
def play : Prop := ∀ e seg, Plays (.play e seg) e .play (mkEntry 0x02 0 0 0 0 0 seg)

/-- PLAYN (R86). -/
def playn : Prop := ∀ e imm seg, Plays (.playn e imm seg) e .playn (mkEntry 0x03 0 0 0 imm 0 seg)

/-- IDLE (R86). -/
def idle : Prop := ∀ e imm, Plays (.idle e imm) e .idle (mkEntry 0x04 0 0 0 imm 0 noSeg)

/-- JMP (R86). -/
def jmp : Prop := ∀ e (tgt : BitVec 16), Links (.jmp e tgt) e (mkEntry 0x08 0 0 0 0 tgt noSeg) fun w =>
  { w with pc := tgt.toNat }

/-- JIF goes to TGT where its condition holds, and to the next entry where it does not; DEC comes first. A member that lacks what
the condition needs faults with COUPLED_PEER (R86, R89, R263). -/
def jif : Prop :=
  (∀ e cond flg ctr tgt s h w,
    let x := mkEntry 0x09 cond flg ctr 0 tgt noSeg
    let w1 := (counted w).decFirst x
    let smp := (s.eng e.val).sample h.next
    Ready s e h w x →
    Answers (.jif e cond flg ctr tgt) s fun t =>
      match s.condRaw (s.eng e.val) h w1.regs w1.cons smp w1.leads x with
      | none => Faulted s t e 0x12 w.pc
      | some v =>
        Resolving s t e h { w1.readCond ((s.eng e.val).coupled && s.isLead (s.eng e.val)) smp x v with
          pc := if condInv x v then tgt.toNat else w.pc + 1 }) ∧
  ∀ e cond flg ctr tgt, Faulty (.jif e cond flg ctr tgt) e (mkEntry 0x09 cond flg ctr 0 tgt noSeg)

/-- CALL pushes the address after it (R86). -/
def call : Prop := ∀ e (tgt : BitVec 16), Links (.call e tgt) e (mkEntry 0x0A 0 0 0 0 tgt noSeg) fun w =>
  { w with pc := tgt.toNat, regs := { w.regs with stack := (w.pc + 1) :: w.regs.stack } }

/-- RET pops the address it goes to (R86). -/
def ret : Prop := ∀ e, Links (.ret e) e (mkEntry 0x0B 0 0 0 0 0 noSeg) fun w =>
  { w with pc := w.regs.stack.headD 0, regs := { w.regs with stack := w.regs.stack.tail } }

/-- LOOP sets its counter and makes it active, with its body at the next entry (R86). -/
def loop : Prop := ∀ e (ctr : Byte) imm, Links (.loop e ctr imm) e (mkEntry 0x0C 0 0 ctr imm 0 noSeg) fun w =>
  { w with pc := w.pc + 1, regs := w.regs.updCtr ctr.toNat fun _ => ⟨imm, true, w.pc + 1, w.pc, w.pc⟩ }

/-- ENDL decrements its counter: at 0 it makes the counter inactive and goes on, and elsewhere it goes back to the body
(R86). -/
def endl : Prop := ∀ e (ctr : Byte), Links (.endl e ctr) e (mkEntry 0x0D 0 0 ctr 0 0 noSeg) fun w =>
  let c := w.regs.ctr ctr.toNat
  if c.value.toNat ≤ 1 then
    { w with pc := w.pc + 1, regs := w.regs.updCtr ctr.toNat fun c => { c with value := 0, active := false } }
  else { w with pc := c.body, regs := w.regs.updCtr ctr.toNat fun c => { c with value := c.value - 1 } }

/-- MATCH (R86, R96). -/
def matchEntry : Prop := ∀ e cond flg ctr imm seg,
  Plays (.matchEntry e cond flg ctr imm seg) e .matchK (mkEntry 0x10 cond flg ctr imm 0 seg)

/-- A MATCH whose last iteration ends gives MATCHED, COX_MATCH_ITER and the next address; on a member that lacks what its condition
needs the engine faults with COUPLED_PEER (R96, R97, R263). -/
def matchIterationsExhausted : Prop := ∀ e s h p, Powered s → (s.eng e.val).heat = some h → h.link = none →
  h.play = some p → s.atDecision (s.eng e.val) h = true → (eImm p.entry).toNat ≤ p.pass →
  Answers (.matchIterationsExhausted e) s fun t =>
    match s.matchSeen (s.eng e.val) h p ((s.eng e.val).sample h.next) with
    | none => (t.eng e.val).st = .faulted ∧ (t.eng e.val).faultCode = 0x12 ∧
        (t.eng e.val).faultAddr = BitVec.ofNat 12 p.addr
    | some ok =>
      (t.eng e.val).regs.matched = ok ∧ (t.eng e.val).matchIter = BitVec.ofNat 32 p.pass ∧
      ∃ g w, (t.eng e.val).heat = some g ∧ g.phase = .decision ∧ g.link = some w ∧ w.pc = p.addr + 1 ∧ w.count = 0 ∧ w.fx = []

/-- WAIT (R86, R98). -/
def waitEntry : Prop := ∀ e cond flg ctr imm tgt,
  Plays (.waitEntry e cond flg ctr imm tgt) e .wait (mkEntry 0x11 cond flg ctr imm tgt noSeg)

/-- BAR (R86, R99). -/
def barEntry : Prop := ∀ e ctr imm tgt, Plays (.barEntry e ctr imm tgt) e .bar (mkEntry 0x22 0 0 ctr imm tgt noSeg)

/-- A WAIT or BAR that has played IMM granules goes on at TGT; where none has, nothing changes (R98). -/
def waitBarTimeout : Prop := ∀ e s h p, Powered s → (s.eng e.val).heat = some h → h.play = some p →
  Answers (.waitBarTimeout e) s fun t =>
    if (s.eng e.val).st = .running ∧ h.phase = .expired then
      ∃ g w, (t.eng e.val).heat = some g ∧ g.phase = .decision ∧ g.link = some w ∧ w.pc = eTgt p.entry ∧ w.count = 0 ∧
        g.barAt = none ∧ g.barPeers = []
    else t = s

/-- APGRUN starts the APG at the microaddress TGT (R86). -/
def apgrun : Prop := ∀ e (tgt : BitVec 16) len,
  Plays (.apgrun e tgt len) e .apgrun (mkEntry 0x18 0 0 0 0 tgt ⟨0, 0, len⟩) ∧
  ∀ s h w, Ready s e h w (mkEntry 0x18 0 0 0 0 tgt ⟨0, 0, len⟩) → w.fx = [] →
    Answers (.apgrun e tgt len) s fun t => (t.eng e.val).regs.apg.upc = BitVec.ofNat 10 tgt.toNat

/-- APGLD loads X, Y, Z, D0, D1 or an index register (R86). -/
def apgld : Prop := ∀ e (ctr : Byte) imm, Links (.apgld e ctr imm) e (mkEntry 0x19 0 0 ctr imm 0 noSeg) fun w =>
  { w with pc := w.pc + 1, regs := { w.regs with apg := w.regs.apg.load ctr.toNat imm } }

/-- What applying a change of flag f, 32 or above, does: a device flag changes 16 ticks after the first tick boundary at or after
the decision point; a regatta flag goes up the tree as an RFLAG event, and at the top changes 320 ticks after it. SETF of the
Easy-All flag raises Easy-All as well (R87, R100, R261). -/
def FlagApplies (e : EngineId) (f : Nat) (on : Bool) : Prop :=
  if f < 96 then Applies e (.devFlag (f - 32) on) fun s h t =>
    t.flags.devPend = s.flags.devPend ++ [⟨ceilDiv (instant h) 512 + 16, f - 32, on⟩] ∧ t.flags.regPend = s.flags.regPend
  else Applies e (.regFlag (f - 96) on) fun s h t =>
    Sends s t 4 (ceilDiv (instant h) 512) (placeN 30 0 ((f - 96) % 16) ||| placeB 30 4 on) ∧
    t.flags.devPend = s.flags.devPend ∧
    t.flags.regPend =
      (if s.isTop then s.flags.regPend ++ [⟨ceilDiv (instant h) 512 + 320, f - 96, on⟩] else s.flags.regPend) ∧
    (on = true → s.eaFlag (f - 96) = true → t.ea.latched = true ∧ (t.eng e.val).st ≠ .running)

/-- SETF sets an engine flag, or sends the change of a device or regatta flag, which its decision point applies (R86, R87, R100). -/
def setf : Prop :=
  (∀ e (ctr : Byte), Links (.setf e ctr) e (mkEntry 0x20 0 0 ctr 0 0 noSeg) fun w =>
    let f := ctr.toNat
    let w := { w with pc := w.pc + 1 }
    if f < 32 then { w with regs := { w.regs with eflags := setBit w.regs.eflags f true } }
    else { w with fx := w.fx ++ [if f < 96 then .devFlag (f - 32) true else .regFlag (f - 96) true] }) ∧
  ∀ e f, 32 ≤ f → f < 112 → FlagApplies e f true

/-- CLRF clears one in the same way (R86, R87, R100). -/
def clrf : Prop :=
  (∀ e (ctr : Byte), Links (.clrf e ctr) e (mkEntry 0x21 0 0 ctr 0 0 noSeg) fun w =>
    let f := ctr.toNat
    let w := { w with pc := w.pc + 1 }
    if f < 32 then { w with regs := { w.regs with eflags := setBit w.regs.eflags f false } }
    else { w with fx := w.fx ++ [if f < 96 then .devFlag (f - 32) false else .regFlag (f - 96) false] }) ∧
  ∀ e f, 32 ≤ f → f < 112 → FlagApplies e f false

/-- ARM arms group CTR at the decision point: an ARM event of this engine, stamped with its tick, goes up the tree, and at the top
waits 320 ticks for its instant (R86, R87, R195, R244). -/
def arm : Prop :=
  (∀ e (ctr : Byte), Links (.arm e ctr) e (mkEntry 0x28 0 0 ctr 0 0 noSeg) fun w =>
    { w with pc := w.pc + 1, fx := w.fx ++ [.arm ctr.toNat] }) ∧
  ∀ e g, Applies e (.arm g) fun s h t =>
    Sends s t 2 (instant h / 512) (armPayload g false false e.val) ∧
    (s.isTop = true →
      if (s.group g).masteredBy false s.ez.id.toNat e.val = true then
        t.ez.ordered = s.ez.ordered ++ [⟨instant h / 512 + 320, .arm g (instant h / 512) false s.ez.id.toNat e.val⟩]
      else t.trg.mismatch = true)

/-- FIRE fires group CTR, unless it is DISABLED, with the instant of the decision point, exactly (R86, R87, R193, R194). -/
def fire : Prop :=
  (∀ e (ctr : Byte), Links (.fire e ctr) e (mkEntry 0x29 0 0 ctr 0 0 noSeg) fun w =>
    { w with pc := w.pc + 1, fx := w.fx ++ [.fire ctr.toNat] }) ∧
  ∀ e g, Applies e (.fire g) fun s h t =>
    let tick := instant h / 512
    let fine := instant h % 512 * 256
    ((s.group g).st ≠ .disabled → Sends s t 1 tick (firePayload g 0 e.val fine)) ∧
    (t.group g).fires = (s.group g).fires ++
      (if (s.group g).st ≠ .disabled ∧ s.isTop = true then [⟨tick, fine, s.ez.id.toNat, 0, e.val⟩] else [])

/-- CAPT chooses the capture mode from the decision point on: FCSAT and its events start afresh, a RAW window begins at the
region's write pointer, which moves past the extent that it declares, with START and FIRST_CYCLE of the decision point
(R86, R87, R151, R158, R160). -/
def capt : Prop :=
  (∀ e (ctr : Byte) imm (bind : BitVec 4),
    Links (.capt e ctr imm bind) e (mkEntry 0x2A 0 0 ctr imm 0 ⟨bind, 0, 0⟩) fun w =>
      { w with pc := w.pc + 1, fx := w.fx ++ [.capt w.pc ctr.toNat imm bind.toNat] }) ∧
  ∀ e addr mode (imm : Word32) b, mode < 4 → Applies e (.capt addr mode imm b) fun s h t =>
    let i := (s.eng e.val).window b
    (t.eng e.val).captMode = BitVec.ofNat 2 mode ∧ (t.eng e.val).fcsat = false ∧
    ∃ g, (t.eng e.val).heat = some g ∧ g.captImm = imm ∧ g.captBind = b ∧ g.oowAt = [] ∧
      (mode = 1 → g.captLeft = imm.toNat ∧ (t.eng e.val).logcnt = BitVec.ofNat 32 (s.region i).recIdx) ∧
      (mode = 3 → (t.region i).rawPtr =
          (s.region i).rawPtr + align64 (64 + 64 * imm.toNat * popCount (s.eng e.val).crew) ∧
        ∃ w, g.raw = some w ∧ w.region = i ∧ w.base = (s.region i).rawPtr ∧ w.granules = imm.toNat ∧ w.entry = addr ∧
          w.start = instant h / 512 ∧ w.first = h.cycle ∧ w.rows = 0) ∧
      (mode ≠ 3 → g.raw = none)

/-- MARK sends a Log record at the decision point, with the engine, its address, the device, IMM, the cycle count and the
time, where LOG_KIND_EN has its kind (R86, R87, R209). -/
def mark : Prop :=
  (∀ e imm, Links (.mark e imm) e (mkEntry 0x2B 0 0 0 imm 0 noSeg) fun w =>
    { w with pc := w.pc + 1, fx := w.fx ++ [.mark w.pc imm] }) ∧
  ∀ e addr (imm : Word32), Applies e (.mark addr imm) fun s h t =>
    bit s.log.kindEn 0 = true →
    ∃ k ∈ t.log.finished, k.kind = 0 ∧ k.unit = e.val ∧
      k.words = [placeN 32 0 e.val ||| placeN 32 8 addr ||| place 32 24 s.ez.id, imm] ++
        words64 (BitVec.ofNat 64 h.cycle) ++ words64 (rtWord (instant h / 512))

/-- LDC loads a counter (R86). -/
def ldc : Prop := ∀ e (ctr : Byte) imm, Links (.ldc e ctr imm) e (mkEntry 0x30 0 0 ctr imm 0 noSeg) fun w =>
  { w with pc := w.pc + 1, regs := w.regs.updCtr ctr.toNat fun c => { c with value := imm } }

/-- SYM chooses the symbol bank (R86). -/
def sym : Prop := ∀ e (ctr : Byte), Links (.sym e ctr) e (mkEntry 0x38 0 0 ctr 0 0 noSeg) fun w =>
  { w with pc := w.pc + 1, regs := { w.regs with symBank := BitVec.ofNat 2 ctr.toNat } }

/-- A peer's fault that is due faults an engine that is RUNNING or HELD with COUPLED_PEER at the present address; where none is
due nothing changes (R102).
The model's choice, no rule of the spec, where the spec leaves open: log entries 114 and 136. -/
def coupledPeerFault : Prop := ∀ e s h, Powered s → (s.eng e.val).heat = some h →
  Answers (.coupledPeerFault e) s fun t =>
    if (s.eng e.val).active = true ∧ s.peerFaultDue (s.eng e.val) h = true then Faulted s t e 0x12 (s.eng e.val).pc.toNat
    else t = s

/-- Per-engine reset: LOADED where the table is valid, IDLE elsewhere, the table kept; a heat in progress ends ABORTED, one still
being admitted is withdrawn, and the launch queue empties. A write without RESET does nothing (R103, R148, R286).
The model's choice, no rule of the spec, where the spec leaves open: log entry 58. -/
def coxCtrlReset : Prop := ∀ e v s, HostUp s →
  Answers (.coxCtrlReset e v) s fun t =>
    if bit v 0 = false then t = s
    else
      (t.eng e.val).st =
        (if (s.eng e.val).st ≠ .idle ∧ (s.eng e.val).tableValid = true then .loaded else .idle) ∧
      (t.eng e.val).epoch = (s.eng e.val).epoch + 1 ∧ (t.eng e.val).table = (s.eng e.val).table ∧
      (t.eng e.val).resumable = false ∧ (t.eng e.val).holdCause = 0 ∧ (t.eng e.val).launchQ = [] ∧
      ∀ h, (s.eng e.val).heat = some h → h.ended = none →
        if h.launchAt = none then (t.eng e.val).heat = none
        else ∃ g, (t.eng e.val).heat = some g ∧ g.phase = .ended ∧ g.ended = some ⟨stAborted, 0, 0, 0⟩

/-- The heat that a launch at regatta time t begins, with its first link (R104). -/
def launched (r : Engine) (h : Heat) (t : Nat) : Heat :=
  { h with phase := .decision, bases := [(0, t)], link := some (linkFrom r.regs none h.start) }

/-- Cycle 0 starts on the chosen tick, with what the link from the start address reaches; until then, or while Easy-All is
latched, nothing changes (R54, R104, R261).
The model's choice, no rule of the spec, where the spec leaves open: log entries 136 and 137. -/
def heatLaunch : Prop := ∀ e ecc s h at_, Powered s → (s.eng e.val).heat = some h → h.launchAt = some at_ → h.ended = none →
  let r := s.eng e.val
  let h1 := launched r h at_
  let s1 := (s.setEng e.val { r with launch := at_ / 512, heat := some h1 }).noteEcc e.val ecc !r.coupled
  let o := s1.runLink e.val (r.sample h.next) 18 (linkFrom r.regs none h.start)
  Answers (.heatLaunch e ecc) s fun t =>
    if r.st = .running ∧ h.phase = .waiting ∧ s.ea.latched = false ∧ at_ ≤ s.rnow then
      Resolved s1 t e h1 o ∧
      ((match o with | .play w _ _ _ => w.fx = [] | .halt w _ _ => w.fx = [] | _ => True) →
        (t.eng e.val).launch = at_ / 512 ∧ ∃ g, (t.eng e.val).heat = some g ∧ g.bases = [(0, at_)])
    else t = s

/-- At the granule boundary that an ABORT meets the heat ends, ABORTED, and at the one that a hold request meets the engine becomes
HELD, resumable, with its cause; elsewhere nothing changes (R105). -/
def holdTakesEffect : Prop := ∀ e s h, Powered s → (s.eng e.val).heat = some h → h.ended = none →
  Answers (.holdTakesEffect e) s fun t =>
    if (s.eng e.val).st ≠ .running ∨ s.rnow < h.startAt h.next then t = s
    else if h.abortDue (s.eng e.val).latency = true then
      (t.eng e.val).st = .halted ∧ (t.eng e.val).resumable = false ∧
      ∃ g, (t.eng e.val).heat = some g ∧ g.phase = .ended ∧ g.ended = some ⟨stAborted, 0, 0, 0⟩
    else if h.holdDue (s.eng e.val).latency = true then
      (t.eng e.val).st = .held ∧ (t.eng e.val).resumable = true ∧ (h.hold.map (·.cause)) = some (t.eng e.val).holdCause ∧
      (t.eng e.val).heat = some { h with hold := none, pendTsets := [] }
    else t = s

/-- On the resume tick the engine is RUNNING again, and played time goes on from where it stood; a device hold request in force
holds it again. While Easy-All is latched it stays HELD. Before that tick nothing changes (R55, R105, R261).
The model's choice, no rule of the spec, where the spec leaves open: log entry 30. -/
def heatResumeTick : Prop := ∀ e s h at_, Powered s → (s.eng e.val).heat = some h → h.resumeAt = some at_ →
  Answers (.heatResumeTick e) s fun t =>
    if (s.eng e.val).st ≠ .held ∨ s.rnow < at_ then t = s
    else if s.ea.latched = true then (t.eng e.val).st = .held ∧ (t.eng e.val).heat = some { h with resumeAt := none }
    else
      (t.eng e.val).st = .running ∧ (t.eng e.val).holdCause = 0 ∧ (t.eng e.val).resumable = false ∧
      ∃ g, (t.eng e.val).heat = some g ∧ g.resumeAt = none ∧ g.next = h.next ∧
        g.bases = (h.next, at_ + h.next % 512 - h.next) :: h.bases ∧
        (s.dev.holdReq = true → g.hold.isSome = true) ∧ (s.dev.holdReq = false → g.hold = h.hold)

/-- The value of a flag after the changes of one tick: set wins over clear, and a flag with no change keeps its value
(R100). -/
def flagAfter {n : Nat} (v : BitVec n) (l : List FlagPend) (f : Nat) : Bool :=
  if l.any (fun p => p.bit = f && p.on) then true else if l.any (fun p => p.bit = f) then false else bit v f

/-- The device flag changes of the earliest tick that has come are applied together (R100). -/
def deviceFlagApply : Prop := ∀ s p, Powered s → p ∈ s.flags.devPend → p.at_ ≤ s.rtick →
  (∀ q ∈ s.flags.devPend, p.at_ ≤ q.at_) →
  Answers .deviceFlagApply s fun t =>
    (∀ f < 64, bit t.flags.dev f = flagAfter s.flags.dev (s.flags.devPend.filter fun q => q.at_ = p.at_) f) ∧
    t.flags.devHist = (p.at_, t.flags.dev) :: s.flags.devHist ∧
    t.flags.devPend = s.flags.devPend.filter fun q => q.at_ ≠ p.at_

/-- The same for regatta flags, on regatta ticks (R100, R244). -/
def regattaFlagApply : Prop := ∀ s p, Powered s → p ∈ s.flags.regPend → p.at_ ≤ s.rtick →
  (∀ q ∈ s.flags.regPend, p.at_ ≤ q.at_) →
  Answers .regattaFlagApply s fun t =>
    (∀ f < 16, bit t.flags.reg f = flagAfter s.flags.reg (s.flags.regPend.filter fun q => q.at_ = p.at_) f) ∧
    t.flags.regHist = (p.at_, t.flags.reg) :: s.flags.regHist ∧
    t.flags.regPend = s.flags.regPend.filter fun q => q.at_ ≠ p.at_

/-- Host changes of device flags apply 16 ticks after the write (R100). -/
def coxDflagsSet : Prop := ∀ e v s, HostUp s → Answers (.coxDflagsSet e v) s fun t =>
  t.flags.devPend = s.flags.devPend ++ (bitsOf 64 v).map fun f => ⟨s.rtick + 16, f, true⟩

def coxDflagsClr : Prop := ∀ e v s, HostUp s → Answers (.coxDflagsClr e v) s fun t =>
  t.flags.devPend = s.flags.devPend ++ (bitsOf 64 v).map fun f => ⟨s.rtick + 16, f, false⟩

/-- A host change of regatta flags: at the top of the tree each flag of the mask changes 320 ticks after the write; elsewhere
each goes up the tree as an RFLAG event of this device, and changes once the broadcast returns (R100, R242, R244). -/
def RegWrites (i : Instr) (v : Word32) (on : Bool) : Prop := ∀ s, HostUp s → Answers i s fun t =>
  if s.isTop = true then
    t.flags.regPend = s.flags.regPend ++ (bitsOf 16 v).map fun f => ⟨s.rtick + 320, f, on⟩
  else
    t.flags = s.flags ∧ ∀ f ∈ bitsOf 16 v, ∀ p ∈ s.portsOf 1,
      Out.event p (evtFlit 4 s.ez.id (tsOf s.rtick) (placeN 30 0 (f % 16) ||| placeB 30 4 on)) ∈ t.out

def coxRflagsSet : Prop := ∀ e v, RegWrites (.coxRflagsSet e v) v true

def coxRflagsClr : Prop := ∀ e v, RegWrites (.coxRflagsClr e v) v false

/-- COX_TBL_SEL takes its snapshot from the table or the microprogram (R107). -/
def coxTblSelWrite : Prop := ∀ e v s, HostUp s → Answers (.coxTblSelWrite e v) s fun t =>
  (t.eng e.val).tblSnap = (if bit v 16 then (if fldN v 0 12 < 1024 then (s.eng e.val).microAt (fldN v 0 12) else 0)
    else (s.eng e.val).entryAt (fldN v 0 12)) ∧
  fldN (t.eng e.val).tblSel 0 12 = fldN v 0 12 ∧ bit (t.eng e.val).tblSel 16 = bit v 16

/-- COX_CFG takes a write while the engine is neither RUNNING nor HELD, and ignores it then (R107).
The model's choice, no rule of the spec, where the spec leaves open: log entry 125. -/
def coxCfgWrite : Prop := ∀ e v s, HostUp s → Answers (.coxCfgWrite e v) s fun t =>
  (t.eng e.val).idleTset = (if (s.eng e.val).active then (s.eng e.val).idleTset else fld v 0 8) ∧
  (t.eng e.val).barGroups = (if (s.eng e.val).active then (s.eng e.val).barGroups else fld v 16 16)

end Sys2Proof.Machine.Completes

namespace Sys2Proof.Machine.Completes

/-! Cycles, pattern data, heats, regions, capture and the Fail Store (R53, R108 to R170). -/

/-- The driver after each used edge of a cycle, at the edge's offset, from a driver in state o whose last driven value is b: the
table of formats, and the data edges of a multiplexed cycle (R62, R65). -/
def pinSteps (t : TSet) (drives : Bool) (d : Nat → Bool) (o : Drive) (b : Bool) : List (Nat × Drive) :=
  let on (v : Bool) : Drive := .level v
  let rz (v : Bool) := [(t.dOn.toNat, on v), (t.dData.toNat, on (d 0)), (t.dRet.toNat, on v)]
  if drives = false then [(t.dOff.toNat, .off)]
  else if 1 < t.m then (List.range t.m).map fun u => (t.dData.toNat + u * t.period.toNat / t.m, on (d u))
  else if t.fmt = 0 then [(t.dOn.toNat, if o = .off then on b else o), (t.dData.toNat, on (d 0))]
  else if t.fmt = 1 then rz false
  else if t.fmt = 2 then rz true
  else if t.fmt = 3 then rz (!d 0)
  else [(t.dData.toNat, on (d 0))]

/-- Those of them that change the driver: only they are transitions (R62). -/
def moves : Drive → List (Nat × Drive) → List (Nat × Drive)
  | _, [] => []
  | o, q :: l => if q.2 = o then moves o l else q :: moves q.2 l

/-- The channel has made the cycle's transitions, each at the corrected time of its edge, and no other (R62, R65, R72). -/
def EdgesMade (u t : State) (start : Nat) (x : Cycle) (c : Nat) : Prop :=
  let v := x.cell c
  let l := pinSteps (u.cycleSet x c) (bit v.sym 0) v.drive (u.chan c).drive (u.chan c).lastDriven
  let m := moves (u.chan c).drive l
  (t.chan c).drive = (l.map (·.2)).getLastD (u.chan c).drive ∧
  ((u.chan c).tripped = false →
    (∀ q ∈ m, (u.corrected c false start q.1, q.2) ∈ (t.chan c).driveHist) ∧
    ∀ y ∈ (t.chan c).driveHist, y ∈ (u.chan c).driveHist ∨ ∃ q ∈ m, y = (u.corrected c false start q.1, q.2))

/-- What a strobe from a to b against x answers, by the comparator's history: it fails where the state differs at its opening, an
edge strobe only there; a window fails too where the state has left x for 40 ps, and does not where it never left x (R34, R63, R64).
-/
def Judges (c : Chan) (win : Bool) (x : Cmp) (a b : Nat) (fail : Bool) : Prop :=
  (c.cmpAt a ≠ x → fail = true) ∧
  (c.cmpAt a = x → win = false → fail = false) ∧
  (c.cmpAt a = x → win = true → c.cmpHist.Pairwise (fun y z => z.1 ≤ y.1) →
    ((∀ y ∈ c.cmpHist, a < y.1 → y.1 < b → y.2 = x) → fail = false) ∧
    ∀ y ∈ c.cmpHist, a < y.1 → y.1 + 33 ≤ b → (∀ z ∈ c.cmpHist, y.1 ≤ z.1 → z.1 < y.1 + 33 → z.2 ≠ x) → fail = true)

/-- The results of a cycle's strobes on channel c (R63 to R65, R91, R138): one for each UI with an expectation, at its strobe
instant, by the comparator at the corrected times of its edges; in loopback this says nothing of a strobe near a drive edge, where
R372 leaves the state open. -/
def StrobesJudged (u t : State) (e : EngineId) (r : Engine) (h : Heat) (p : Play) (x : Cycle) (c : Nat) (res : List Res) : Prop :=
  let q := u.cycleSet x c
  let start := h.startAt x.start
  let near := (t.chan c).firstEdge (u.actsAfter e.val r h p c)
  ∀ k < q.m,
    let a := q.stbOpen.toNat + k * q.period.toNat / q.m
    let win := q.m = 1 && q.stb
    let b := if win then q.stbClose.toNat else a
    let opened := u.corrected c true start a
    let closed := u.corrected c true start b
    match (x.cell c).expect k with
    | none => ∀ y ∈ res, ¬(y.c = c ∧ y.u = k)
    | some v => ∃ y ∈ res, y.c = c ∧ y.u = k ∧ y.at_ = x.start + b ∧ y.raw = closed ∧ y.mask = bit (x.cell c).sym 7 ∧
        ((u.chan c).looped = false ∨
            ((t.chan c).nearEdge near opened = none ∧ (t.chan c).nearEdge near closed = none) →
          Judges (t.chan c) win v opened closed y.fail)

/-- The cycle's failing strobes have counted on channel c, one for each UI, but for those that a clear covers (R138, R139). -/
def FailsCounted (u t : State) (c : Nat) (res : List Res) : Prop :=
  (t.chan c).failCnt.toNat = min 0xFFFFFFFF ((u.chan c).failCnt.toNat +
    (res.filter fun y => y.c = c && y.fail && !y.mask && decide ((u.chan c).failClr ≤ y.raw / 1024)).length)

/-- What capture has taken of a cycle with these results (R138, R151, R154, R158): nothing in COUNT; in FIRSTN a record of a failing
cycle while there is room; in BITMAP one update that ORs the fail bits into their word, those past the data bits out of window; in
RAW a row of each channel's UIs, masked ones too. What finds no room counts as out of window. -/
def Captured (u t : State) (e : EngineId) (h : Heat) (res : List Res) : Prop :=
  let r := u.eng e.val
  let i := r.window h.captBind
  let f := res.filter fun y => y.fail && !y.mask
  let out : Prop := (t.eng e.val).oow = satInc r.oow
  let still : Prop := t.fc.queue = u.fc.queue
  if r.captMode = 1 then
    let k := (u.region i).recIdx
    if f = [] then still ∧ (t.eng e.val).oow = r.oow
    else if h.captLeft = 0 ∨ (u.region i).size < 64 * k + 64 then still ∧ out
    else (∃ bs, bs.length = 64 ∧ t.fc.queue = u.fc.queue ++ [⟨e.val, i, (u.region i).gen, .bytes (64 * k) bs⟩]) ∧
       (t.region i).recIdx = k + 1 ∧ (t.eng e.val).oow = r.oow
  else if r.captMode = 2 then
    let g := u.geom h.captImm.toNat
    let bits := (f.filter fun y => g.dbiOf y.c ≠ 255).map fun y => g.dbiOf y.c + y.u * g.ustride
    let a := g.addr (tagNow h.tags (r.tagOf r.regs.apg) (fldN r.apgCfg 0 8)).2 * 2 ^ g.b
    let w := a / 256 - wbaseOf h.decl h.captBind
    if bits = [] then still ∧ (t.eng e.val).oow = r.oow
    else
      let fits := wbaseOf h.decl h.captBind ≤ a / 256 ∧ w < (u.region i).size / 32
      (if fits ∧ ∃ b ∈ bits, b < 2 ^ g.b then
        ∃ z : BitVec 256, t.fc.queue = u.fc.queue ++ [⟨e.val, i, (u.region i).gen, .bitmap w z g⟩] ∧
          ∀ n < 256, z.getLsbD n = true ↔ ∃ b ∈ bits, b < 2 ^ g.b ∧ n = a % 256 + b
      else still) ∧
      (t.eng e.val).oow = (if fits ∧ ∀ b ∈ bits, b < 2 ^ g.b then r.oow else satInc r.oow)
  else if r.captMode = 3 then
    match h.raw with
    | none => still
    | some w =>
      if 64 * w.granules ≤ w.rows then still
      else
        let row : List Byte := r.chans.map fun c =>
          maskOf 8 ((res.filter fun y => y.c = c && y.fail).map (·.u))
        let o := w.base + 64 + w.rows * row.length
        if w.headerFits = true ∧ o + row.length ≤ (u.region w.region).size then
          t.fc.queue = u.fc.queue ++ [⟨e.val, w.region, (u.region w.region).gen, .bytes o row⟩]
        else still ∧ out
  else still ∧ (t.eng e.val).oow = r.oow

/-- What a played cycle x leaves on the crew's channels, in the crew's FAIL, in the fail counters, in capture and in the APG: an
idle cycle places no edge and makes no strobe (R53, R62 to R65, R86, R92, R129, R138). -/
def CyclePlayed (u t : State) (e : EngineId) (r : Engine) (h : Heat) (p : Play) (x : Cycle) : Prop :=
  (t.eng e.val).regs.apg =
    (if p.kind = .apgrun then r.regs.apg.step (r.microAt r.regs.apg.upc.toNat) else r.regs.apg) ∧
  ∃ res : List Res,
    (x.idle = true → res = []) ∧
    (x.idle = false → ∀ c ∈ r.chans,
      ((u.chan c).active.pathCode = 1 → EdgesMade u t (h.startAt x.start) x c) ∧ StrobesJudged u t e r h p x c res) ∧
    (∀ c ∈ r.chans, FailsCounted u t c res) ∧
    (∃ g, (t.eng e.val).heat = some g ∧ g.fails = ((res.filter fun y => y.fail && !y.mask).map (·.at_)) ++ h.fails) ∧
    Captured u t e h res

/-- A RUNNING crew that nothing stops at its boundary plays its next cycle once that has passed on every path and the path switches
that fall in it have been made (R224): played time moves on by the period of the cycle's timing set (R53), and 64 cycles make a
granule (R20). The drivers make the transitions of its edges and the comparators judge its strobes, whose fails reach the crew's
FAIL, the fail counters and capture; in APGRUN the APG steps (R62 to R65, R92, R129, R138, R139, R154). A granule that could not be
read faults the engine before its first cycle, and until the cycle has passed the crew waits (R72, R101). What was still to be
fetched has been fetched by then (R95), and a granule has begun with a step of the applied levels (R76): u is the state with both.
The model's choice, no rule of the spec, where the spec leaves open: log entries 115, 116, 138 and 139. -/
def testerCycle : Prop := ∀ e s h p, Powered s → (s.eng e.val).st = .running →
  let u := (s.fetchDue e.val).startGranule e.val
  let r := u.eng e.val
  r.heat = some h → h.play = some p → h.phase = .cycling → u.blocked r h = false →
  let x := u.nextCycle r h p
  let n := (u.crewSet r x).period.toNat
  Answers (.testerCycle e) s fun t =>
    if r.chans.any u.switchDue = true then t = u
    else if p.cyc = 0 ∧ ((u.granuleOf r p).any fun y => h.fetchBad y.1 y.2) = true then
      (t.eng e.val).st = .faulted ∧ (t.eng e.val).faultCode = 0x10 ∧ (t.eng e.val).faultAddr = BitVec.ofNat 12 p.addr ∧
      (t.eng e.val).epoch = (s.eng e.val).epoch + 1
    else if u.cycleOver r h x = true then
      (t.eng e.val).cycles = (s.eng e.val).cycles + 1 ∧
      (∃ g, (t.eng e.val).heat = some g ∧ g.cycle = h.cycle + 1 ∧ g.next = h.next + n ∧
        g.play = some { p with cyc := p.cyc + 1 } ∧ g.phase = (if p.cyc + 1 = 64 then .boundary else .cycling)) ∧
      CyclePlayed u t e r h p x
    else t = u

/-- The heat goes on with play p, in this phase. -/
def GoesOn (t : State) (e : EngineId) (phase : HeatPhase) (p : Play) : Prop :=
  ∃ g, (t.eng e.val).heat = some g ∧ g.phase = phase ∧ g.play = some p

/-- The heat comes to a decision point whose link begins at an address. -/
def Decides (t : State) (e : EngineId) (pc : Nat) : Prop :=
  ∃ g w, (t.eng e.val).heat = some g ∧ g.phase = .decision ∧ g.link = some w ∧ w.pc = pc ∧ w.count = 0

/-- At a granule boundary a PLAY, IDLE or APGRUN goes on with its next granule, or ends after its last (R86, R121); a PLAYN plays
its segment IMM times (R86); a MATCH comes to its decision after its segment (R96); a WAIT or BAR plays at least 8 granules,
goes on until its condition or barrier is visible, and after IMM granules has run out (R98, R99). -/
def granuleBoundary : Prop := ∀ e s h p, Powered s → (s.eng e.val).heat = some h → h.play = some p →
  (s.eng e.val).st = .running → h.phase = .boundary →
  let r := s.eng e.val
  let next : Play := { p with cyc := 0, gran := p.gran + 1 }
  let last := decide (p.passLen ≤ p.gran + 1)
  let counted : Play := { next with pass := if last then p.pass + 1 else p.pass }
  let stays : HeatPhase := if last then .expired else .cycling
  Answers (.granuleBoundary e) s fun t =>
    match p.kind with
    | .play | .idle | .apgrun => if last then Decides t e (p.addr + 1) else GoesOn t e .cycling next
    | .playn =>
      if !last then GoesOn t e .cycling next
      else if (eImm p.entry).toNat ≤ p.pass + 1 then Decides t e (p.addr + 1)
      else GoesOn t e .cycling { counted with gran := 0 }
    | .matchK =>
      if last then GoesOn t e .decision { counted with gran := 0 } else GoesOn t e .cycling next
    | .bar =>
      if 8 ≤ p.gran + 1 ∧ h.barSeen (r.sample h.next) = true then Decides t e (p.addr + 1) else GoesOn t e stays counted
    | .wait =>
      if p.gran + 1 < 8 then GoesOn t e stays counted
      else
        match s.condRaw r h r.regs h.cons (r.sample h.next) 0 p.entry with
        | none => (t.eng e.val).st = .faulted ∧ (t.eng e.val).faultCode = 0x12
        | some v => if condInv p.entry v then Decides t e (p.addr + 1) else GoesOn t e stays counted

/-- A fetched granule of a bound VECTOR region is noted with the bytes found there and its error, which is an event of source 33
with one of the region's channels; of another granule nothing is noted (R95, R101, R123).
The model's choice, no rule of the spec, where the spec leaves open: log entry 68. -/
def segmentFetch : Prop := ∀ e b (gran : BitVec 24) ue s h, Powered s → (s.eng e.val).heat = some h →
  Answers (.segmentFetch e b gran ue) s fun t =>
    match s.segRegion (s.eng e.val) b.val with
    | none => t = s
    | some i =>
      if h.phase = .ended ∨ (s.region i).size ≤ gran.toNat then t = s
      else
        ∃ d, (t.eng e.val).heat = some { h with fetched :=
          ⟨i, gran.toNat, ue, d⟩ :: h.fetched.filter fun f => !(f.region = i && f.gran = gran.toNat) } ∧
          (((s.region i).late.filter fun x => x.gran = gran.toNat) = [] → d = s.readGranule i gran.toNat) ∧
          (ue = true → (s.region i).slices ≠ [] → ∃ y ∈ (s.region i).slices,
            Reported s t 33 (placeN 32 0 (if y.1 < 8 then y.1 else y.1 + 8) ||| place 32 8 gran))

/-- A binding takes a write unless the engine is RUNNING or HELD, which sets IGNORED (R114).
The model's choice, no rule of the spec, where the spec leaves open: log entry 125. -/
def coxBindWrite : Prop := ∀ e (b : Fin 16) v s, HostUp s →
  Answers (.coxBindWrite e b v) s fun t =>
    if (s.eng e.val).active then t.eng e.val = { s.eng e.val with pdIgnored := true }
    else (t.eng e.val).pdIgnored = (s.eng e.val).pdIgnored ∧
      ∀ c, (t.eng e.val).bindAt c = if c = b.val then v else (s.eng e.val).bindAt c

/-- A pattern register takes a value without reserved codes unless the engine is RUNNING or HELD (R124).
The model's choice, no rule of the spec, where the spec leaves open: log entry 125. -/
def patternConfigWrite : Prop := ∀ e q v s, HostUp s →
  Answers (.patternConfigWrite e q v) s fun t =>
    t.eng e.val = (if (s.eng e.val).active then { s.eng e.val with pdIgnored := true }
      else if patRegOk q v then (s.eng e.val).writePat q v
      else { s.eng e.val with pdRefused := true })

/-- TABLE_LOAD of fields that R277 does not allow, or of a microinstruction with a reserved code, completes BAD_COMMAND; while the
engine is RUNNING or HELD, NOT_READY. Else it writes the entries it carries, and every other entry of the space becomes the trap
entry or zero (R103, R106, R131, R277). -/
def tableLoad : Prop := ∀ h engine space first count data s, Serves s (.tableLoad h engine space first count data)
    h (engineRec engine) →
  Answers (.tableLoad h engine space first count data) s fun t =>
    if tableOk engine space first count data = false then Refuses s t h stBadCommand
    else if (s.eng engine.toNat).active = true then Refuses s t h stNotReady
    else if space ≠ 0 ∧ data.all microOk = false then Refuses s t h stBadCommand
    else
      Decided t h stOk ∧
      (space = 0 → (t.eng engine.toNat).tableValid = true ∧
        (t.eng engine.toNat).st = (if (s.eng engine.toNat).st = .faulted then .faulted else .loaded) ∧
        ∀ a, (t.eng engine.toNat).entryAt a =
          if first.toNat ≤ a then data.getD (a - first.toNat) (BitVec.allOnes 128) else BitVec.allOnes 128) ∧
      (space ≠ 0 → ∀ a, (t.eng engine.toNat).microAt a =
        if first.toNat ≤ a then data.getD (a - first.toNat) 0 else 0)

/-- TABLE_PATCH writes the named entries alone; where one of them is active it completes SEG_ACTIVE, and BAD_COMMAND as TABLE_LOAD
does (R106, R131). -/
def tablePatch : Prop := ∀ h engine space first count data s, Serves s (.tablePatch h engine space first count data)
    h (engineRec engine) →
  Answers (.tablePatch h engine space first count data) s fun t =>
    if tableOk engine space first count data = false then Refuses s t h stBadCommand
    else if s.patchActive engine.toNat space first.toNat count.toNat = true then Refuses s t h stSegActive
    else if space ≠ 0 ∧ data.all microOk = false then Refuses s t h stBadCommand
    else
      Decided t h stOk ∧ (t.eng engine.toNat).st = (s.eng engine.toNat).st ∧
      (space = 0 → ∀ a, (t.eng engine.toNat).entryAt a =
        if first.toNat ≤ a then data.getD (a - first.toNat) ((s.eng engine.toNat).entryAt a)
        else (s.eng engine.toNat).entryAt a) ∧
      (space ≠ 0 → ∀ a, (t.eng engine.toNat).microAt a =
        if first.toNat ≤ a then data.getD (a - first.toNat) ((s.eng engine.toNat).microAt a)
        else (s.eng engine.toNat).microAt a)

/-- SEGMENT_WRITE reads its data from the host and writes whole granules of a VECTOR region of its context that no engine's active
set holds; else it completes with the status that R122, R123 and R277 give and writes nothing. -/
def segmentWrite : Prop := ∀ h handle (first count : Word32) data s, Serves s (.segmentWrite h handle first count data) h anyRec →
  let i := handleIdx handle
  let r := s.region i
  let f := first.toNat
  let n := count.toNat
  Answers (.segmentWrite h handle first count data) s fun t =>
    if n = 0 then Refuses s t h stBadCommand
    else if s.liveRegion handle = false then Refuses s t h stStaleHandle
    else if r.owner ≠ ctxOfQueue h.sq then Refuses s t h stNotOwner
    else if r.kind ≠ .vector ∨ r.size < f + n then Refuses s t h stBadCommand
    else if ((s.enginesIn Engine.active).any fun e => s.segTouched e i f n) = true then Refuses s t h stSegActive
    else
      Result t h stOk 0 0 (BitVec.ofNat 64 (n * r.granAll)) ∧
      t.out = .hostRead h.dptr.toNat (n * r.granAll) :: s.out ∧
      (t.region i).mem = (((List.range n).foldl (fun u j =>
        u.writeGranule i (f + j) (sliceB data (j * r.granAll) r.granAll)) s).region i).mem

/-- REGION_ALLOC makes a region of its context at a free index and gives its handle, and a mapping its BAR2 offset; else it
completes BAD_COMMAND or REFUSED_CAPACITY as R373, R268 and R324 say and makes none (R108, R373).
The model's choice, no rule of the spec, where the spec leaves open: log entries 11 and 72. -/
def regionAlloc : Prop := ∀ h kind map_ m size mask s, Serves s (.regionAlloc h kind map_ m size mask) h (allocRec kind map_) →
  let r := newRegion (ctxOfQueue h.sq) kind m size mask
  Answers (.regionAlloc h kind map_ m size mask) s fun t =>
    if 1 < map_.toNat ∨ allocOk kind m size mask = false then Refuses s t h stBadCommand
    else if map_ = 1 ∧ (s.ez.id ≠ 0 ∨ r.kind = .vector) then Refuses s t h stBadCommand
    else
      match (if map_ = 1 then s.bar2Start (ceilDiv size.toNat bar2Unit) else some 0) with
      | none => Refuses s t h stBadCommand
      | some a =>
        if s.allocFits (s.recOf h) r = false then Refuses s t h stRefusedCapacity
        else
          match pickIndex (Config.handleIndex s.freeCount).toNat s.regions.length s.regionUsed with
          | none => Refuses s t h stRefusedCapacity
          | some i =>
            if 2 ^ 20 ≤ i then Refuses s t h stRefusedCapacity
            else
              (s.region i).live = false ∧
              t.region i = { r with gen := (s.region i).gen, map := if map_ = 1 then some (a * bar2Unit) else none } ∧
              t.host.sharedFree = (if r.kind = .shared then s.host.sharedFree - size.toNat else s.host.sharedFree) ∧
              Result t h stOk 0 ((handleOf i (s.region i).gen).setWidth 64)
                (if map_ = 1 then BitVec.ofNat 64 (a * bar2Unit) else BitVec.allOnes 64)

/-- REGION_FREE makes the handle stale at once, and its memory free again, a capture region's once it has been zeroed. A stale
handle or another owner's is a software fault; a region in use stays (R108, R116, R143, R147, R298).
The model's choice, no rule of the spec, where the spec leaves open: log entry 72. -/
def regionFree : Prop := ∀ h handle s, Serves s (.regionFree h handle) h anyRec →
  let r := s.region (handleIdx handle)
  let fault (st : Byte) : Word32 := place 32 0 st ||| placeN 32 8 (ctxOfQueue h.sq) ||| placeN 32 16 0x19 ||| placeN 32 24 h.sq.val
  Answers (.regionFree h handle) s fun t =>
    if s.liveRegion handle = false then
      Decided t h stStaleHandle ∧ Reported s t 57 (fault stStaleHandle) ∧ ∀ j, t.region j = s.region j
    else if r.owner ≠ ctxOfQueue h.sq then
      Decided t h stNotOwner ∧ Reported s t 57 (fault stNotOwner) ∧ ∀ j, t.region j = s.region j
    else if s.regionBusy handle = true then Refuses s t h stSegActive
    else
      Decided t h stOk ∧ t.region (handleIdx handle) = { Region.reset with gen := nextGen r.gen } ∧
      t.host.sharedFree = (if r.kind = .shared then s.host.sharedFree + r.size else s.host.sharedFree) ∧
      t.fc.zeroing = (if r.kind = .capture ∧ r.win ≠ .unbacked then s.fc.zeroing ++ [(handle, r.size)] else s.fc.zeroing)

/-- Memory that has been zeroed is free again: FC_CAP_FREE grows by its bytes, and what stands where the freed region stood reads as
zeros (R147). -/
def regionZeroingDone : Prop := ∀ handle s, Powered s → Answers (.regionZeroingDone handle) s fun t =>
  (∀ z, z ∈ t.fc.zeroing ↔ z ∈ s.fc.zeroing ∧ z.1 ≠ handle) ∧
  (s.capBacked + s.capZeroing ≤ capTotal →
    t.capFree = s.capFree + ((s.fc.zeroing.filter fun z => z.1 = handle).map (·.2)).sum) ∧
  t.capBacked = s.capBacked ∧
  ((s.region (handleIdx handle)).mem = [] → ∀ o n, ∀ b ∈ t.regionBytes (handleIdx handle) o n, b = 0)

/-- REGION_READ writes the bytes of a region of its context to the host, and LENGTH says how many; else it completes with the status
that R277 gives (R143, R277, R285). -/
def regionRead : Prop := ∀ h handle offset length s, Serves s (.regionRead h handle offset length) h anyRec →
  let st := s.rwCheck handle (ctxOfQueue h.sq) offset length
  Answers (.regionRead h handle offset length) s fun t =>
    if st ≠ stOk then Refuses s t h st
    else
      Result t h stOk 0 0 length ∧
      t.out = .hostWrite h.dptr.toNat (s.regionBytes (handleIdx handle) offset.toNat length.toNat) :: s.out

/-- REGION_WRITE reads its bytes from the host and stores them; a CAPTURE window becomes FILLED. An UNBACKED window is NOT_READY,
one being captured or drained SEG_ACTIVE, and else R277 gives the status (R143, R277). -/
def regionWrite : Prop := ∀ h handle offset length data s, Serves s (.regionWrite h handle offset length data) h anyRec →
  let st := s.rwCheck handle (ctxOfQueue h.sq) offset length
  let i := handleIdx handle
  let r := s.region i
  Answers (.regionWrite h handle offset length data) s fun t =>
    if st ≠ stOk then Refuses s t h st
    else if r.kind = .capture ∧ r.win = .unbacked then Refuses s t h stNotReady
    else if r.kind = .capture ∧ (r.win = .capturing ∨ r.win = .draining) then Refuses s t h stSegActive
    else
      Result t h stOk 0 0 length ∧ t.out = .hostRead h.dptr.toNat length.toNat :: s.out ∧
      (t.region i).mem = Memory.writeN 0 r.mem offset.toNat (sliceB data 0 length.toNat) ∧
      (t.region i).win = (if r.kind = .capture then .filled else r.win)

/-- A heat has been admitted on engine e: RUNNING, its registers cleared, to launch at regatta tick `at_` (R104). -/
def Admitted (t : State) (e start : Nat) (decl : Decl) (at_ : Nat) : Prop :=
  (t.eng e).st = .running ∧ (t.eng e).regs = EngRegs.reset ∧ (t.eng e).cycles = 0 ∧ (t.eng e).pc = BitVec.ofNat 12 start ∧
  ∃ g, (t.eng e).heat = some g ∧ g.start = start ∧ g.phase = .waiting ∧ g.decl = decl ∧ g.launchAt = some (at_ * 512)

/-- What a HEAT_START that has reached its engine does in state s, where the launch queue has become l: a lead with other members
waits for their answers; else the checks of R145 admit the heat, to launch 64 ticks later, or refuse it (R81, R104, R145). -/
def Admits (s t : State) (e : Nat) (l : List LaunchReq) (q : LaunchReq) : Prop :=
  let r := s.eng e
  (t.eng e).launchQ = l ∧
  if r.coupled = true ∧ s.isLead r = true then
    s.peers r ≠ [] → (t.eng e).st = r.st ∧ ∃ g, (t.eng e).heat = some g ∧ g.start = q.start.toNat ∧ g.decl = q.decl ∧
      g.launchAt = none ∧ g.answers.map (·.1) = [s.ez.id.toNat]
  else
    match s.admitCheck e (ctxOfQueue q.sq) q.decl true with
    | none => Admitted t e q.start.toNat q.decl (s.rtick + 64)
    | some (st, d) => (t.eng e).heat = r.heat ∧ (t.eng e).st = r.st ∧ ∃ c ∈ t.host.inflight, c.names q.sq q.cid = true ∧
        c.stage = .committed ∧ c.status = st ∧ c.detail = d

/-- HEAT_START of a start address or engine out of range completes BAD_COMMAND. Behind a heat in progress or an earlier HEAT_START
of the engine it waits in the launch queue, and else it is admitted or refused (R81, R104, R145, R278).
The model's choice, no rule of the spec, where the spec leaves open: log entry 66. -/
def heatStart : Prop := ∀ h engine start decl s, Serves s (.heatStart h engine start decl) h (engineRec engine) →
  let seq := ((s.cmd? h.sq h.cid).map (·.seq)).getD s.host.fetchSeq
  let r := s.eng engine.toNat
  let q : LaunchReq := ⟨seq, h.sq, h.cid, start, decl⟩
  Answers (.heatStart h engine start decl) s fun t =>
    if 128 ≤ engine.toNat ∨ 4096 ≤ start.toNat then Refuses s t h stBadCommand
    else if r.heat.isSome = true ∨ r.launchQ ≠ [] ∨ s.earlierHeat engine.toNat seq = true then
      Waits t h ∧ t.eng engine.toNat = { r with launchQ := insLaunch q r.launchQ }
    else Admits s t engine.toNat [] q

/-- The first of the launch queue is admitted or refused once no heat is in progress and no HEAT_START fetched before it is still to
come; until then nothing changes (R278). -/
def heatAdmission : Prop := ∀ e s q l, Powered s → (s.eng e.val).launchQ = q :: l →
  (s.cmd? q.sq q.cid).isSome = true →
  Answers (.heatAdmission e) s fun t =>
    if (s.eng e.val).heat.isSome = true ∨ s.earlierHeat e.val q.seq = true then t = s
    else Admits (s.updEng e.val fun r => { r with launchQ := l }) t e.val l q

/-- A heat that has ended completes once none of its capture writes is on its way and, on the lead, every member has ended: its
windows are FILLED, those it wrote with PARTIAL_SOURCE where the crew's status is not OK, and its command reports that worst status,
the result and the cycles. Another member of a coupled crew tells the lead of its end, once (R142, R143, R149, R168, R277).
The model's choice, no rule of the spec, where the spec leaves open: log entries 140 and 141. -/
def heatCompletion : Prop := ∀ e s h x, Powered s → (s.eng e.val).heat = some h → h.ended = some x →
  let r := s.eng e.val
  let ends := if r.coupled then h.peerEnds else []
  let st := worstStatus (x.status :: ends.map (·.2.1))
  Answers (.heatCompletion e) s fun t =>
    if (s.fc.queue.any fun w => w.engine = e.val) = true then t = s
    else if r.coupled = true ∧ s.isLead r = false then
      t = if h.told then s
        else (s.updHeat e.val fun h => { h with told := true }).sendTo (s.leadId r)
          (.coupledEnd r.coupling s.ez.id x.status h.fcsatEver)
    else if r.coupled = true ∧ ((s.peers r).all fun i => h.peerEnds.any fun p => p.1 = i) = false then t = s
    else
      (t.eng e.val).heat = none ∧
      (∀ w ∈ h.wins, (t.region w.1).win = .filled ∧ (t.region w.1).lastTag = x.tag ∧
        (h.wrote.contains w.1 = true → st ≠ stOk → (t.region w.1).partialSrc = true)) ∧
      Ends s t h.sq h.cid st x.result0 r.cycles

/-- HEAT_HOLD asks a RUNNING engine for a hold, of several requests the earliest counting; of an engine that is not RUNNING, one
without a heat among them, or of a member that is not the lead, it completes BAD_COMMAND, with the lead's ID in DETAIL (R81, R105,
R277). -/
def heatHold : Prop := ∀ h engine s, Serves s (.heatHold h engine) h (engineRec engine) →
  let r := s.eng engine.toNat
  Answers (.heatHold h engine) s fun t =>
    if 128 ≤ engine.toNat then Refuses s t h stBadCommand
    else if s.notLead r = true then
      Result t h stBadCommand (placeN 32 0 (s.leadId r)) 0 0 ∧ KeepsAllBut [.hostCmds] s t
    else if r.st ≠ .running then Refuses s t h stBadCommand
    else Waits t h ∧ (t.eng engine.toNat).st = .running ∧ ∀ g, r.heat = some g →
      ∃ x, (t.eng engine.toNat).heat = some x ∧ x.hold = (match g.hold with
        | none => some ⟨g.playedAt s.rtick, 1⟩
        | some q => if g.playedAt s.rtick < q.at_ then some ⟨g.playedAt s.rtick, 1⟩ else some q)

/-- HEAT_RESUME of a heat that is HELD and resumable: it goes on 64 ticks later, and the lead of a coupled crew asks the other
members first; what forbids a resume gives the status, a second HEAT_RESUME finds the hold ending (R81, R105, R189, R260, R261,
R264).
The model's choice, no rule of the spec, where the spec leaves open: log entries 35 and 117. -/
def heatResume : Prop := ∀ h engine s, Serves s (.heatResume h engine) h (engineRec engine) →
  let r := s.eng engine.toNat
  Answers (.heatResume h engine) s fun t =>
    if 128 ≤ engine.toNat then Refuses s t h stBadCommand
    else if s.notLead r = true then
      Result t h stBadCommand (placeN 32 0 (s.leadId r)) 0 0 ∧ KeepsAllBut [.hostCmds] s t
    else if r.st ≠ .held ∨ r.resumable = false then Refuses s t h stBadCommand
    else if s.resumeBad r ≠ stOk then Refuses s t h (s.resumeBad r)
    else if ∃ g ∈ r.heat, g.resumeAt.isSome = true ∨ g.asking = true then Refuses s t h stBadCommand
    else if r.coupled = false then
      Waits t h ∧ (t.eng engine.toNat).heat = r.heat.map fun g => { g with resumeAt := some ((s.rtick + 64) * 512) }
    else s.peers r ≠ [] → Waits t h ∧
      (t.eng engine.toNat).heat = r.heat.map fun g => { g with asking := true, answers := [(s.ez.id.toNat, stOk, 0)] }

/-- On a channel of the fail partition the oldest capture write of the engine lands in its region, where that is still the one it
was made for: bytes as they are, bitmap bits ORed in with the window's geometry noted; an uncorrectable error counts and is an event
of source 44 (R19, R141, R142, R157). -/
def captureWriteLanded : Prop := ∀ e ue hbm s w rest, Powered s → takeWrite e.val s.fc.queue = some (w, rest) →
  let r := s.region w.region
  Answers (.captureWriteLanded e ue hbm) s fun t =>
    if failChannel hbm.val = false then t = s
    else
      t.fc.queue = rest ∧
      if r.gen ≠ w.gen then t.region w.region = r
      else
        match w.data with
        | .bytes a bs => t.region w.region = { r with mem := Memory.writeN 0 r.mem a bs }
        | .bitmap a bits g =>
          (t.region w.region).geom = some (r.geom.getD g) ∧
          (t.region w.region).geomMixed = (r.geomMixed || decide (r.geom.getD g ≠ g)) ∧
          (ue = false → (t.region w.region).mem = Memory.writeN 0 r.mem (32 * a)
            (bytesLE 32 (BitVec.ofNat 256 (leNat (s.regionBytes w.region (32 * a) 32)) ||| bits).toNat)) ∧
          (ue = true → t.fc.hbmUe = satInc s.fc.hbmUe ∧ Reported s t 44 (placeN 32 0 hbm.val))

/-- A RAW window that has played its granules ends: its header leaves for the slot kept for it, and the crew counts again; one that
has not goes on (R140, R158, R159). -/
def rawWindowEnd : Prop := ∀ e s h w, Powered s → (s.eng e.val).heat = some h → h.raw = some w →
  Answers (.rawWindowEnd e) s fun t =>
    if h.rawDone = false then t = s
    else
      (t.eng e.val).captMode = 0 ∧ (∃ g, (t.eng e.val).heat = some g ∧ g.raw = none) ∧
      t.fc.queue = s.fc.queue ++ (if w.headerFits then
        [⟨e.val, w.region, (s.region w.region).gen, .bytes w.base (bytesLE 64 (s.rawHeader e.val w).toNat)⟩] else [])

/-- The fail counters of the named lanes become 0, but for the failing strobes of the CK_C cycle of the write; those of the other
lanes stay (R139). -/
def fcCntClr : Prop := ∀ v s, HostUp s → Answers (.fcCntClr v) s fun t =>
  ∀ k < 16, ∀ j < 16,
    let c := s.chan (16 * k + j)
    (t.chan (16 * k + j)).failCnt =
      if bit v k then (if c.failRun.1 = s.ckC then BitVec.ofNat 32 c.failRun.2 else 0) else c.failCnt

/-- A FILLED window whose drain is not pending asks for it, behind what asked before; any other request is refused (R161). -/
def fcDrainReq : Prop := ∀ v s, HostUp s →
  let r := s.region (handleIdx v)
  Answers (.fcDrainReq v) s fun t =>
    if s.liveRegion v = true ∧ r.kind = .capture ∧ r.win = .filled ∧ r.drainPending = false then
      t.region (handleIdx v) = { r with drainPending := true, drainSeq := s.fc.drainSeq + 1 } ∧
      t.fc.drainSeq = s.fc.drainSeq + 1 ∧ t.fc.drainRefused = s.fc.drainRefused
    else t.fc.drainRefused = true ∧ ∀ j, t.region j = s.region j

/-- A write that leaves a descriptor valid takes effect while no heat uses it; one in use is IGNORED and one that would be invalid
REFUSED, and the descriptor stays (R156).
The model's choice, no rule of the spec, where the spec leaves open: log entry 36. -/
def fcGeomWrite : Prop := ∀ g q v s, HostUp s → Answers (.fcGeomWrite g q v) s fun t =>
  if s.geomInUse g.val = true then t.fc.ignored = true ∧ ∀ d, t.geom d = s.geom d
  else if ((s.geom g.val).write q v).valid = true then
    t.geom g.val = (s.geom g.val).write q v ∧ t.fc.refused = s.fc.refused ∧ t.fc.ignored = s.fc.ignored
  else t.fc.refused = true ∧ ∀ d, t.geom d = s.geom d

/-- The idle drain engine takes the oldest window that asks: an object of its own begins to be written. Without a key of the owner
the drain ends DENIED and without room REFUSED_CAPACITY, each an event of source 45, and the window stays FILLED (R161, R162,
R164, R166).
The model's choice, no rule of the spec, where the spec leaves open: log entry 11. -/
def drainStart : Prop := ∀ s i n, Powered s → s.fc.job = none → s.oldestDrain = some (i, n) →
  let r := s.region i
  Answers .drainStart s fun t =>
    (t.region i).drainPending = false ∧
    if s.hasKey r.owner = false then
      (t.region i).win = r.win ∧ Reported s t 45 (noticeWord stDenied r.kindCode r.geomMixed)
    else
      match (if s.extentsFree < reservation r.size then none
        else (pickIndex (Config.handleIndex s.freeCount).toNat s.objs.length s.objUsed).filter (· < 2 ^ 20)) with
      | none => (t.region i).win = r.win ∧ Reported s t 45 (noticeWord stRefusedCapacity r.kindCode r.geomMixed)
      | some j =>
        t.fc.job = some (.drain i j) ∧ (t.region i).win = .draining ∧ (t.obj j).live = true ∧ (t.obj j).writing = true ∧
        (t.obj j).owner = r.owner ∧ (t.obj j).windowBytes = r.size ∧ (t.obj j).keyGen = s.keyOf r.owner ∧
        (t.obj j).created = s.rtick ∧ (t.obj j).extents.length = reservation r.size

/-- Object j holds image m: its blocks that are not all zero, each at its position, encrypted (R162, R163). -/
def Stores (s t : State) (j : Nat) (m : Memory) : Prop :=
  (t.obj j).blocks = ((blocksOfImage m).zipIdx 0).map (fun x => (x.1.1, s.encrypt j x.2 x.1.2)) ∧
  (t.obj j).storedBlocks = (blocksOfImage m).length ∧ (t.obj j).writing = false

/-- A finished drain leaves an object with the window's image, a CLEAN window and an OK notice (R143, R162, R165).
The model's choice, no rule of the spec, where the spec leaves open: log entries 37, 120 and 150. -/
def drainDone : Prop := ∀ s i j, Powered s → s.fc.job = some (.drain i j) →
  Answers .drainDone s fun t =>
    Stores s t j (s.region i).mem ∧ t.region i = (s.region i).cleaned ∧
    t.fc.drainLast = place 96 0 (handleOf i (s.region i).gen) ||| place 96 32 (s.objHandle j) |||
      place 96 64 (noticeWord stOk (s.region i).kindCode (s.region i).geomMixed)

/-- FAILSTORE_READ of an object of its context whose key can be used writes the bytes up to the object's end or to the first that
cannot be read to the host: OK with all of them, PARTIAL with fewer. Else it completes with the status that R170 and R328
give.
The model's choice, no rule of the spec, where the spec leaves open: log entry 37. -/
def failstoreRead : Prop := ∀ h handle (offset length : Word64) bad s, Serves s (.failstoreRead h handle offset length bad)
    h failstoreRec →
  let i := handleIdx handle
  let st := s.objCheck handle (ctxOfQueue h.sq)
  let size := 4096 + (s.obj i).windowBytes
  let good := match bad with
    | some b => b - offset.toNat
    | none => length.toNat
  let n := if size < offset.toNat + length.toNat then size - offset.toNat else min length.toNat good
  Answers (.failstoreRead h handle offset length bad) s fun t =>
    if st ≠ stOk then Refuses s t h st
    else if s.objReadable i = false then Refuses s t h stDenied
    else
      Result t h (if n < length.toNat then stPartial else stOk) 0 0 (BitVec.ofNat 64 n) ∧
      ∃ bs, t.out = .hostWrite h.dptr.toNat bs :: s.out ∧ bs.length = n ∧
        (bad = none → bs = (List.range n).map fun k => s.imageByte i (offset.toNat + k))

/-- FAILSTORE_MERGE of handles of its context whose objects fit each other is put behind the work of the drain engine, with an
object that begins to be written; else it completes with the status that R169 and R170 give, for want of room with an event of
source 45.
The model's choice, no rule of the spec, where the spec leaves open: log entries 11 and 70. -/
def failstoreMerge : Prop := ∀ h (n : Byte) handles s, Serves s (.failstoreMerge h n handles) h failstoreRec →
  let ctx := ctxOfQueue h.sq
  let hs := handles.take n.toNat
  let l := hs.map handleIdx
  let sts := hs.map fun x => s.objCheck x ctx
  Answers (.failstoreMerge h n handles) s fun t =>
    if n.toNat < 2 ∨ 8 < n.toNat ∨ handles.length ≠ 8 ∨ ∃ x ∈ handles.drop n.toNat, x ≠ 0 then Refuses s t h stBadCommand
    else if stStaleHandle ∈ sts then Refuses s t h stStaleHandle
    else if stNotOwner ∈ sts then Refuses s t h stNotOwner
    else if stNotReady ∈ sts then Refuses s t h stNotReady
    else if s.mergeOk l = false then Refuses s t h stBadCommand
    else if (∃ i ∈ l, s.objReadable i = false) ∨ s.hasKey ctx = false then Refuses s t h stDenied
    else
      match (if s.extentsFree < reservation (s.obj (l.headD 0)).windowBytes then none
        else (pickIndex (Config.handleIndex s.freeCount).toNat s.objs.length s.objUsed).filter (· < 2 ^ 20)) with
      | none => Decided t h stRefusedCapacity ∧ ∃ k, Reported s t 45 (noticeWord stRefusedCapacity k false)
      | some j =>
        Waits t h ∧ (t.obj j).writing = true ∧ (t.obj j).live = true ∧ (t.obj j).sources = l.length ∧
        t.fc.job.toList ++ t.fc.merges = s.fc.job.toList ++ s.fc.merges ++ [.merge s.fc.drainSeq h.sq h.cid j l]

/-- A finished merge leaves an object with the OR of its sources and completes OK with its handle; one that met a block it could not
read leaves no object, completes ABORTED and is an event of source 45 (R169, R170).
The model's choice, no rule of the spec, where the spec leaves open: log entries 37, 120, 121 and 151. -/
def mergeDone : Prop := ∀ s n sq cid j l, Powered s → s.fc.job = some (.merge n sq cid j l) →
  (j ∉ l → Answers (.mergeDone false) s fun t =>
    Stores s t j (l.foldl (fun m i => orImage m (s.plainImage i)) []) ∧
    Ends s t sq cid stOk ((s.objHandle j).setWidth 64) 0) ∧
  Answers (.mergeDone true) s fun t =>
    (t.obj j).live = false ∧ (t.obj j).gen = nextGen (s.obj j).gen ∧ Ends s t sq cid stAborted 0 0 ∧
    ∃ k, Reported s t 45 (noticeWord stAborted k false)

/-- FAILSTORE_FREE makes the handle stale; the object's space is free once no merge reads it. An object still being written is given
up. A stale handle or another owner's is a software fault (R169, R170, R298). -/
def failstoreFree : Prop := ∀ h handle s, Serves s (.failstoreFree h handle) h failstoreRec →
  let i := handleIdx handle
  let st := s.objCheck handle (ctxOfQueue h.sq)
  let fault : Word32 := place 32 0 st ||| placeN 32 8 (ctxOfQueue h.sq) ||| placeN 32 16 0x32 ||| placeN 32 24 h.sq.val
  Answers (.failstoreFree h handle) s fun t =>
    if st = stStaleHandle ∨ st = stNotOwner then Decided t h st ∧ Reported s t 57 fault ∧ ∀ j, t.obj j = s.obj j
    else if st = stNotReady then
      (∀ n l, Job.merge n h.sq h.cid i l ∉ s.fc.job.toList ++ s.fc.merges) → Decided t h stOk
    else
      Decided t h stOk ∧ (t.obj i).live = false ∧ (t.obj i).gen = nextGen (s.obj i).gen ∧
      (t.obj i).extents = (if s.beingRead i then (s.obj i).extents else [])

/-- A drive error counts, may take the drive OFFLINE, and is an event of source 40 + k; a drain in progress ends without its object,
its window FILLED again (R164, R166, R298).
The model's choice, no rule of the spec, where the spec leaves open: log entries 150 and 151. -/
def nvmeDriveError : Prop := ∀ (k : Fin 4) status offline s, Powered s →
  Answers (.nvmeDriveError k status offline) s fun t =>
    (t.nv k.val).errors = satInc (s.nv k.val).errors ∧
    (t.nv k.val).state = (if offline then 4 else (s.nv k.val).state) ∧
    (offline = true → (t.nv k.val).speed = 0 ∧ (t.nv k.val).width = 0) ∧
    Reported s t (40 + k.val) (place 32 0 status ||| place 32 16 (t.nv k.val).state) ∧
    ∀ i j, s.fc.job = some (.drain i j) →
      (t.region i).win = .filled ∧ (t.region i).drainPending = false ∧ (t.obj j).live = false

/-- A port comes up with its drive usable or not; of a usable one at most 16 TB are used (R166). -/
def nvmePortOnline : Prop := ∀ (k : Fin 4) usable (bytes : Word64) speed width s, Powered s →
  Answers (.nvmePortOnline k usable bytes speed width) s fun t =>
    (t.nv k.val).state = (if usable then 2 else 3) ∧ (t.nv k.val).speed = speed ∧ (t.nv k.val).width = width ∧
    (t.nv k.val).cap = (if usable then min bytes.toNat 16000000000000 else 0) ∧
    (t.nv k.val).errors = (s.nv k.val).errors

end Sys2Proof.Machine.Completes

namespace Sys2Proof.Machine.Completes

/-! TIM units, the reference, triggers, acquisition, the Log and calibration (R172 to R237). -/

/-- TIM_SETUP of a unit that does not exist or with ARM above 1 completes BAD_COMMAND, of a unit that nobody holds NOT_OWNER, that
another holds CLAIMED, that is not IDLE NOT_READY, with a reserved code BAD_COMMAND; else OK: it writes the registers, and arms
the unit where ARM is 1 (R174, R277). -/
def timSetup : Prop := ∀ h unit arm cfg sel count timeout ofs s, Serves s (.timSetup h unit arm cfg sel count timeout ofs)
    h anyRec →
  let u := unit.toNat
  Answers (.timSetup h unit arm cfg sel count timeout ofs) s fun t =>
    if 32 ≤ u ∨ 2 ≤ arm.toNat then Refuses s t h stBadCommand
    else if s.timOwner u = 31 then Refuses s t h stNotOwner
    else if s.timOwner u ≠ ctxOfQueue h.sq then Refuses s t h stClaimed
    else if (s.tim u).st ≠ .idle then Refuses s t h stNotReady
    else if timCfgOk cfg = false ∨ timSelOk sel = false then Refuses s t h stBadCommand
    else
      Decided t h stOk ∧ (t.tim u).cfg = cfg &&& timCfgMask ∧ (t.tim u).sel = sel &&& timSelMask ∧
      (t.tim u).count = fld count 0 16 ∧ (t.tim u).timeout = timeout &&& 0xFFFFFFFFFF ∧ (t.tim u).ofs = ofs ∧
      (t.tim u).st = (if arm = 1 then .waitGate else .idle)

/-- ARM moves an IDLE unit whose claim a context holds to WAIT_GATE with COUNT measurements left and no result, and any other such
unit not at all; of a unit whose claim no context holds it is ignored (R174, R175, R183). -/
def timArm : Prop := ∀ (u : TimId) s, HostUp s →
  let x := s.tim u.val
  Answers (.timArm u) s fun t =>
    if 16 ≤ s.timOwner u.val then t.tim u.val = { x with ignored := true }
    else if x.st ≠ .idle then t = s
    else t.tim u.val = { x with
      st := .waitGate
      armAt := s.rtick
      left := if x.count = 0 then none else some x.count.toNat
      result := none
      snap := none }

/-- DISARM returns a unit to IDLE. A STARTED measurement gives a result: CANCELLED, or OK where its stop edge lies in an earlier
tick (R174, R175, R185). -/
def timDisarm : Prop := ∀ (u : TimId) s, HostUp s →
  let x := s.tim u.val
  Answers (.timDisarm u) s fun t =>
    if 16 ≤ s.timOwner u.val then t.tim u.val = { x with ignored := true }
    else if x.st = .idle then t = s
    else
      (t.tim u.val).st = .idle ∧ (t.tim u.val).left = none ∧ (t.tim u.val).gate = false ∧ (t.tim u.val).stopAt = none ∧
      (x.st = .started → ∃ r, (t.tim u.val).result = some r ∧ r.seq = x.seq + 1 ∧ r.start = x.startT ∧
        match x.stopAt.filter fun a => (fineTick a).1 < s.rtick with
        | none => r.code = timCancelled ∧ r.interval = 0
        | some a => r.code = timOk ∧ r.interval = BitVec.ofInt 64 ((a : Int) - x.startT - x.ofs.toInt))

/-- A configuration write reaches an IDLE unit that calibration does not hold, and is ignored elsewhere (R174). -/
def timConfigWrite : Prop := ∀ (u : TimId) q v s, HostUp s →
  Answers (.timConfigWrite u q v) s fun t =>
    t.tim u.val = (if (s.tim u.val).st ≠ .idle ∨ s.timOwner u.val = 16 then { s.tim u.val with ignored := true }
      else (s.tim u.val).write q v)

/-- The balls are sampled, a change with the tick it came on, and the unit follows its gate (R173, R175). -/
def timGateChange : Prop := ∀ (u : TimId) (balls : BitVec 4) s, Powered s →
  let lv : BitVec 5 := setFld s.pins.level 0 balls
  Answers (.timGateChange u balls) s fun t =>
    t.pins = (if lv = s.pins.level then s.pins else ⟨lv, (s.rtick, lv) :: s.pins.hist⟩) ∧
    t.tim u.val = { s.tim u.val with
      gate := t.timGateNow u.val
      st := match (s.tim u.val).st with
        | .waitGate | .armed => if t.timGateNow u.val then .armed else .waitGate
        | x => x }

/-- An edge that the start input sees starts a unit that awaits one, if the gate was true on the edge's tick; any other edge changes
nothing (R172, R173, R175). -/
def timStartEdge : Prop := ∀ (u : TimId) edge s, Powered s →
  let x := s.tim u.val
  let at_ := s.edgeTime u.val x.startSrc x.binS edge.obs
  let k := (fineTick at_).1
  Answers (.timStartEdge u edge) s fun t =>
    if x.sees 0 edge = true ∧ x.awaitsStart k = true ∧ s.timGateOn u.val k = true ∧ k ≤ s.rtick then
      t.tim u.val = { x with
        st := .started
        gate := true
        startT := at_
        stopAt := none }
    else t = s

/-- The first edge that the stop input sees, at or after the start and by the end of the timeout's last tick, gives an OK result
with the interval less the offset, and fires, at the top of the tree, the groups that have the unit as a member. One of the
present tick does so when the tick has passed; any other edge changes nothing (R172, R175 to R178, R185, R193). -/
def timStopEdge : Prop := ∀ (u : TimId) edge s, Powered s →
  let x := s.tim u.val
  let at_ := s.edgeTime u.val x.stopSrc x.binP edge.obs
  let k := (fineTick at_).1
  Answers (.timStopEdge u edge) s fun t =>
    if x.sees 8 edge = false ∨ x.st ≠ .started ∨ x.stopAt.isSome = true ∨ at_ < x.startT ∨ x.expiry < k ∨ s.rtick < k then
      t = s
    else if k = s.rtick then t.tim u.val = { x with stopAt := some at_ }
    else
      (∃ r, (t.tim u.val).result = some r ∧ r.code = timOk ∧ r.seq = x.seq + 1 ∧ r.consumed = false ∧ r.endTick = k ∧
        r.interval = BitVec.ofInt 64 ((at_ : Int) - x.startT - x.ofs.toInt)) ∧
      (t.tim u.val).st = (if x.left.map (· - 1) = some 0 then .idle else .dead) ∧ (t.tim u.val).deadEnd = k + 16 ∧
      (s.isTop = true → ∀ g < 16, (s.group g).st ≠ .disabled → bit (s.group g).tims u.val = true →
        (⟨k, (fineTick at_).2, s.ez.id.toNat, 1, u.val⟩ : FireRec) ∈ (t.group g).fires)

/-- A measurement with no stop edge by the end of its timeout's last tick gives a TIMEOUT result, whose interval is 0; before that,
and with a stop edge of that tick, nothing changes (R176, R185). -/
def timTimeout : Prop := ∀ (u : TimId) s, Powered s →
  let x := s.tim u.val
  Answers (.timTimeout u) s fun t =>
    if x.st = .started ∧ x.stopAt = none ∧ x.expiry < s.rtick then
      (∃ r, (t.tim u.val).result = some r ∧ r.code = 1 ∧ r.interval = 0 ∧ r.seq = x.seq + 1 ∧ r.start = x.startT) ∧
      (t.tim u.val).st = (if x.left.map (· - 1) = some 0 then .idle else .dead)
    else t = s

/-- After its dead time the unit waits for its gate again (R175). -/
def timDeadTimeEnd : Prop := ∀ (u : TimId) s, Powered s →
  let x := s.tim u.val
  Answers (.timDeadTimeEnd u) s fun t =>
    if x.st = .dead ∧ x.deadEnd ≤ s.rtick then
      t.tim u.val = { x with
        st := if s.timGateNow u.val then .armed else .waitGate
        gate := s.timGateNow u.val
        armAt := x.deadEnd }
    else t = s

/-- A read of TIM_RES_STAT gives the result's word, takes the snapshot and consumes the result (R182, R183). -/
def timResStatRead : Prop := ∀ (u : TimId) s, HostUp s → Answers (.timResStatRead u) s fun t =>
  t.out = .readData [s.timStat u.val] :: s.out ∧ (t.tim u.val).snap = (s.tim u.val).result ∧
  (t.tim u.val).result = (s.tim u.val).result.map fun r => { r with consumed := true }

/-- A loss of the reference is declared, 64 to 72 ticks after its last edge: holdover, a count and a time, an event of source 48,
results that ended since say so, and every RUNNING heat is asked to hold. Within a span it ends a return or a relock in
progress and nothing else (R185, R187 to R190, R298).
The model's choice, no rule of the spec, where the spec leaves open: log entry 69. -/
def refclkLost : Prop := ∀ s, Powered s → Answers .refclkLost s fun t =>
  if s.refSpan = true then t = { s with ref := { s.ref with returning := false, relocking := false } }
  else
    t.refSpan = true ∧ t.ref.present = false ∧ t.ref.holdover = true ∧ t.ref.latch = true ∧ t.ref.returning = false ∧
    t.ref.relocking = false ∧ t.ref.lossCount = satInc s.ref.lossCount ∧ t.ref.lossTime = s.rtick ∧
    t.ref.lossEdge ≤ s.rtick - 64 ∧ s.rtick ≤ t.ref.lossEdge + 72 ∧
    Reported s t 48 (place 32 0 (satInc s.ref.lossCount)) ∧
    (∀ u, t.tim u = (s.tim u).noteLoss t.ref.lossEdge) ∧
    ∀ e h, (s.eng e).st = .running → (s.eng e).heat = some h → ∃ g, (t.eng e).heat = some g ∧ g.hold.isSome = true

/-- The first edge of a stable run starts the millisecond, within a span (R190). -/
def refclkReturning : Prop := ∀ s, Powered s → Answers .refclkReturning s fun t =>
  if s.refSpan = true then t = { s with ref := { s.ref with returning := true, relocking := false, since := s.now } }
  else t = s

/-- After a millisecond the return is recognised and the PLL relocks (R190). -/
def refclkReturnRecognised : Prop := ∀ s, Powered s → Answers .refclkReturnRecognised s fun t =>
  if s.ref.returning = true ∧ s.ref.since + 1600000 ≤ s.now then
    t = { s with ref := { s.ref with returning := false, relocking := true, since := s.now } }
  else t = s

/-- The span ends when the PLL has relocked (R188, R190). -/
def pllRelocked : Prop := ∀ s, Powered s → Answers .pllRelocked s fun t =>
  if s.ref.relocking = true then
    t.refSpan = false ∧ t.ref.present = true ∧ t.ref.holdover = false ∧ t.ref.relocking = false ∧
    t.ref.returnTime = s.rtick ∧ t.ref.spans = (s.ref.lossEdge, s.rtick) :: s.ref.spans ∧ t.ref.latch = s.ref.latch ∧
    t.ref.lossCount = s.ref.lossCount
  else t = s

/-- Row i asks for an arm or a disarm of group g, as event ev with this payload. The device that the group's master names sends it:
at the top of its tree it waits 320 ticks, elsewhere it goes up. On another device it is ignored (R194, R195, R244). -/
def ArmRequest (i : Instr) (g : GroupId) (dis : Bool) (ev : Nat → Bool → Nat → Nat → OrdEv) : Prop := ∀ s, HostUp s →
  let r := s.group g.val
  Answers i s fun t =>
    if (if r.masterHost then s.ez.id ≠ 0 else s.ez.id.toNat ≠ r.masterId) then
      t = { s with trg := { s.trg with ignored := true } }
    else if s.isTop = true then
      t.ez.ordered = s.ez.ordered ++ [⟨s.rtick + 320, ev s.rtick r.masterHost s.ez.id.toNat r.masterEng⟩] ∧
      t.trg = s.trg
    else
      t.ez = s.ez ∧ ∀ p ∈ s.portsOf 1,
        Out.event p (evtFlit 2 s.ez.id (tsOf s.rtick) (armPayload g.val dis r.masterHost r.masterEng)) ∈ t.out

/-- TRG_GRP_ARM (R195).
The model's choice, no rule of the spec, where the spec leaves open: log entry 15. -/
def trgGrpArm : Prop := ∀ g : GroupId, ArmRequest (.trgGrpArm g) g false (OrdEv.arm g.val)

/-- TRG_GRP_DISARM (R195). -/
def trgGrpDisarm : Prop := ∀ g : GroupId, ArmRequest (.trgGrpDisarm g) g true (OrdEv.disarm g.val)

/-- A write that clears EN disables the group at once and drops its held arms; any other is ignored while the group is ARMED or
DEAD and refused with WIN_STATE 3, and takes effect else (R200). -/
def trgGrpCfgWrite : Prop := ∀ (g : GroupId) q v s, HostUp s →
  let r := s.group g.val
  Answers (.trgGrpCfgWrite g q v) s fun t =>
    if clearsEn r q v = true then
      (t.group g.val).st = .disabled ∧ bit (t.group g.val).cfg 0 = false ∧ (t.group g.val).held = [] ∧
      (t.group g.val).fires = [] ∧ (∀ k, k ≠ 0 → bit (t.group g.val).cfg k = bit r.cfg k) ∧
      (t.group g.val).win = r.win ∧ (t.group g.val).fireCnt = r.fireCnt
    else if r.st = .armed ∨ r.st = .dead then t = { s with trg := { s.trg with ignored := true } }
    else if q = .cfg ∧ fldN v 28 2 = 3 then t = { s with trg := { s.trg with refused := true } }
    else t.group g.val = r.write q v

/-- An edge of TRIG_IN fires, at the top of the tree, the enabled groups that have it as a member, at the start of the tick; below
the top the fires go up (R193, R194). -/
def trigInEdge : Prop := ∀ rising s, Powered s → Answers (.trigInEdge rising) s fun t =>
  t.pins = ⟨setBit s.pins.level 4 rising, (s.rtick, setBit s.pins.level 4 rising) :: s.pins.hist⟩ ∧
  ∀ g < 16, (s.group g).st ≠ .disabled → bit (s.group g).cfg 24 = true → bit (s.group g).cfg 25 = !rising →
    if s.isTop = true then (⟨s.rtick, 0, s.ez.id.toNat, 3, 0⟩ : FireRec) ∈ (t.group g).fires
    else ∀ p ∈ s.portsOf 1, Out.event p (evtFlit 1 s.ez.id (tsOf s.rtick) (firePayload g 3 0 0)) ∈ t.out

/-- From 320 ticks after its instant on the decided fire commits, after the arms and disarms whose instants have come by then: the
group is in its dead time, the bound units in PRE take the fire, and a group that drives TRIG_OUT has it rise DELAY ticks after the
fire (R195 to R197, R199, R201, R203). -/
def fireCommit : Prop := ∀ (g : GroupId) s, Powered s → Answers (.fireCommit g) s fun t =>
  match (s.group g.val).firstFire with
  | none => t = s
  | some f =>
    if s.rtick < f.tick + 320 then t = s
    else
      let s1 := State.applyArms g.val (f.tick + 320) s.ez.ordered.length s
      match (s1.group g.val).firstFire with
      | none => t = s1
      | some x =>
        if s.rtick < x.tick + 320 then t = s1
        else
          (t.group g.val).st = .dead ∧ (t.group g.val).decided = some x ∧ (t.group g.val).fireTick = x.tick ∧
          (t.group g.val).fireCnt = (s1.group g.val).fireCnt + 1 ∧ (t.group g.val).fires = [] ∧
          t.trg.outRise = s1.trg.outRise ++
            (if fldN s.trg.outCfg 24 4 = g.val ∧ fldN s.trg.outCfg 16 8 ≠ 0 then [x.tick + fldN s.trg.outCfg 0 16] else []) ∧
          ∀ k < 16, t.acq k = (if (s1.acq k).st = .pre ∧ (s1.acq k).bound g.val = true then (s1.acq k).takeFire x
            else s1.acq k)

/-- Once R is known and has come, the group is IDLE with its dead time and its held arms are applied or dropped, and the units that
wait in CLOSE end their records; a group disabled meanwhile stays so (R197, R198, R201). -/
def rearmInstantKnown : Prop := ∀ (g : GroupId) s, Powered s → Answers (.rearmInstantKnown g) s fun t =>
  match s.rearmInstant g.val with
  | none => t = s
  | some r =>
    if s.rtick < r then t = s
    else
      (t.group g.val).held = (if (s.group g.val).st = .dead then [] else (s.group g.val).held) ∧
      (t.group g.val).dones = [] ∧
      ((s.group g.val).st ≠ .dead → (t.group g.val).st = (s.group g.val).st) ∧
      ((s.group g.val).st = .dead →
        (t.group g.val).dead = BitVec.ofNat 32 (min (r - (s.group g.val).fireTick) (2 ^ 32 - 1)) ∧
        (t.group g.val).st = (if ∃ a ∈ (s.group g.val).held, r ≤ a then .armed else .idle) ∧
        (t.group g.val).earlyArm = ((s.group g.val).earlyArm || (s.group g.val).held.any fun a => decide (a < r))) ∧
      ∀ k ∈ s.closingUnits g.val, (t.acq k).done = (s.acq k).done + 1 ∧ (t.acq k).lastRec = (s.acq k).recno ∧
        (t.acq k).st = (if (s.acq k).lastOne then .idle else .pre)

/-- TRIG_OUT rises on its tick for WIDTH ticks (R199). -/
def trigOutPulse : Prop := ∀ s, Powered s → Answers .trigOutPulse s fun t =>
  match s.trg.outRise with
  | [] => t = s
  | r :: l =>
    if s.rtick < r then t = s
    else t.trg = { s.trg with outHigh := true, outRise := l, outFall := r + fldN s.trg.outCfg 16 8 }

/-- TRIG_OUT falls at the end of its pulse (R199). -/
def trigOutPulseEnd : Prop := ∀ s, Powered s → Answers .trigOutPulseEnd s fun t =>
  t.trg = (if s.trg.outHigh = true ∧ s.trg.outFall ≤ s.rtick then { s.trg with outHigh := false } else s.trg)

/-- TRG_OUT_CFG takes a DELAY of 320 or more and refuses a smaller one (R199). -/
def trgOutCfgWrite : Prop := ∀ v s, HostUp s → Answers (.trgOutCfgWrite v) s fun t =>
  t.trg = (if fldN v 0 16 < 320 then { s.trg with refused := true } else { s.trg with outCfg := v &&& 0x0FFFFFFF })

/-- ACQ_SETUP with a malformed field completes BAD_COMMAND, as does an image with a value R216 refuses, and else with the status of
the first check of R205 that fails; OK replaces the registers of the unit, and arms it where ARM is 1.
The model's choice, no rule of the spec, where the spec leaves open: log entry 17. -/
def acqSetup : Prop := ∀ h unit arm cfg pre post count region level hyst s,
    Serves s (.acqSetup h unit arm cfg pre post count region level hyst) h anyRec →
  let k := unit.toNat
  let c := ctxOfQueue h.sq
  let a := (s.acq k).setup cfg pre post count region level hyst
  let st := s.acqCheck a c
  Answers (.acqSetup h unit arm cfg pre post count region level hyst) s fun t =>
    if 16 ≤ k ∨ 2 ≤ arm.toNat then Refuses s t h stBadCommand
    else if (st = stOk ∨ st = stNotReady) ∧ acqImageOk cfg pre post count = false then Refuses s t h stBadCommand
    else if st ≠ stOk then Refuses s t h st
    else if s.claim (768 + k) = 31 then Refuses s t h stNotOwner
    else if s.claim (768 + k) ≠ c then Refuses s t h stClaimed
    else if (s.acq k).st ≠ .idle then Refuses s t h stNotReady
    else
      Decided t h stOk ∧ (t.acq k).region = region ∧ (t.acq k).level = level ∧ (t.acq k).hyst = hyst ∧
      (t.acq k).cfg = cfg &&& acqCfgMask ∧ (t.acq k).pre = pre &&& 0x1FFFFFF ∧ (t.acq k).post = post &&& 0x1FFFFFF ∧
      (t.acq k).count = count &&& 0x1FFFFFF ∧
      (t.acq k).st = (if arm = 1 then (if s.adcFree k then .pre else .waitAdc) else .idle)

/-- ARM of an IDLE unit whose claim a context holds and whose checks pass takes it to WAIT_ADC, and to PRE at once where the ADC is
free; of a unit that is not IDLE it is ignored, and with a failing check refused (R201, R205). -/
def acqArm : Prop := ∀ (k : GroupId) s, HostUp s →
  let c := s.claim (768 + k.val)
  Answers (.acqArm k) s fun t =>
    if (s.acq k.val).st ≠ .idle then t = { s with trg := { s.trg with ignored := true } }
    else if 16 ≤ c ∨ s.acqCheck (s.acq k.val) c ≠ stOk then t = { s with trg := { s.trg with refused := true } }
    else
      (t.acq k.val).st = (if s.adcFree k.val then .pre else .waitAdc) ∧ (t.acq k.val).recno = 0 ∧ (t.acq k.val).done = 0 ∧
      (t.acq k.val).mux = fld (s.acq k.val).cfg 0 5 ∧ (t.acq k.val).setting = false

/-- START fixes the trigger sample of a unit in PRE, and does nothing to another (R201, R203). -/
def acqStart : Prop := ∀ (k : GroupId) s, HostUp s → Answers (.acqStart k) s fun t =>
  if (s.acq k.val).st = .pre then
    t.acq k.val = { s.acq k.val with
      st := .post
      trig := (s.acq k.val).sampleAt s.rtick
      fire := none
      hostStart := true
      stopped := false }
  else t = s

/-- STOP ends PRE and WAIT_ADC with no record, and closes the record of POST: the unit goes on with the next one unless that was the
last of COUNT, or COUNT is 0; in IDLE and CLOSE nothing changes (R201, R204). -/
def acqStop : Prop := ∀ (k : GroupId) s, HostUp s →
  let a := s.acq k.val
  Answers (.acqStop k) s fun t =>
    match a.st with
    | .pre | .waitAdc => t.acq k.val = { a with st := .idle }
    | .post =>
      (t.acq k.val).done = a.done + 1 ∧ (t.acq k.val).lastRec = a.recno ∧
      (t.acq k.val).st = (if a.countN = 0 ∨ a.countN ≤ a.done + 1 then .idle else .pre)
    | _ => t = s

/-- A unit that waits for the ADC enters PRE once it is free (R201). -/
def acqAdcFree : Prop := ∀ (k : GroupId) s, Powered s → Answers (.acqAdcFree k) s fun t =>
  if (s.acq k.val).st = .waitAdc ∧ s.adcFree k.val = true then
    (t.acq k.val).st = .pre ∧ (t.acq k.val).preAt = s.rtick ∧ (t.acq k.val).samples = [] ∧ (t.acq k.val).nSamples = 0 ∧
    (t.acq k.val).recno = (s.acq k.val).recno
  else t = s

/-- The sample interval that ends gives the mean of its conversions; before its end, after the last sample of the record, or with
another number of conversions, nothing changes (R202, R203). -/
def acqSample : Prop := ∀ (k : GroupId) convs s, Powered s →
  let a := s.acq k.val
  Answers (.acqSample k convs) s fun t =>
    if a.preAt + a.span * (a.nSamples + 1) ≤ s.rtick ∧ (a.st = .pre ∨ (a.st = .post ∧ a.nSamples < a.trig + a.postN)) ∧
        convs.length = 2 ^ a.kExp then
      (t.acq k.val).nSamples = a.nSamples + 1 ∧ (t.acq k.val).st = a.st ∧
      (t.acq k.val).samples = (if a.st = .pre then (acqMean convs :: a.samples).take (a.preN + 2)
        else acqMean convs :: a.samples)
    else t = s

/-- A record with all its samples closes: at once after START, and with its group's R after a fire (R201). -/
def acqPostComplete : Prop := ∀ (k : GroupId) s, Powered s →
  let a := s.acq k.val
  Answers (.acqPostComplete k) s fun t =>
    if a.st = .post ∧ a.trig + a.postN ≤ a.nSamples then
      if a.hostStart = true then
        (t.acq k.val).done = a.done + 1 ∧ (t.acq k.val).lastRec = a.recno ∧
        (t.acq k.val).st = (if a.lastOne then .idle else .pre)
      else t.acq k.val = { a with st := .close }
    else t = s

/-- The next finished packet enters the intake with its sequence number, after the discards that make room, each of them counted
(R210, R212). -/
def logPacketEnter : Prop := ∀ s, Powered s → Answers .logPacketEnter s fun t =>
  match takeFirst s.log.finished with
  | none => t = s
  | some (p, rest) =>
    let l := s.log.discardUntil (fun l => decide (l.intake.length < 256)) (s.log.intake.length + s.log.filling.length)
    t.log.intake = l.intake ++ [⟨s.log.seq, p⟩] ∧ t.log.seq = s.log.seq + 1 ∧ t.log.filling = l.filling ∧
    t.log.lostPkts = l.lostPkts ∧ t.log.lostWords = l.lostWords ∧
    (s.log.intake.length < 256 → t.log = { s.log with
      finished := rest, intake := s.log.intake ++ [⟨s.log.seq, p⟩], seq := s.log.seq + 1 })

/-- The oldest packet of the intake enters the filling bank, after the discards that make room; a fill that rises to LEVEL is
latched (R210, R212, R215). -/
def logIntakeToBank : Prop := ∀ s, Powered s → Answers .logIntakeToBank s fun t =>
  match s.log.intake with
  | [] => t = s
  | p :: rest =>
    let l := s.log.discardUntil (fun l => decide (l.fillWords + readWordsOf p.pkt.words.length ≤ 2048)) s.log.filling.length
    t.log.intake = rest ∧ t.log.filling = l.filling ++ [p] ∧ t.log.lostPkts = l.lostPkts ∧
    t.log.levelIrq = (s.log.levelIrq || (decide (s.log.fill < fldN s.log.cfg 0 13) &&
      decide (fldN s.log.cfg 0 13 ≤ t.log.fill))) ∧
    (s.log.fillWords + readWordsOf p.pkt.words.length ≤ 2048 → l = s.log)

/-- Row i swaps the banks where c holds and the draining bank is empty, and changes nothing elsewhere (R211, R213). -/
def Swaps (i : Instr) (c : State → Prop) : Prop := ∀ s, Powered s → Answers i s fun t =>
  (s.log.draining = [] ∧ c s → t.log.filling = [] ∧ t.log.fillBank = !s.log.fillBank ∧
    t.log.draining = (s.log.filling.map fun p =>
      packetWords s.log.fillBank p (readWordsOf p.pkt.words.length) true p.pkt.words).flatten) ∧
  (¬(s.log.draining = [] ∧ c s) → t = s)

/-- The banks swap when the filling bank holds enough (R211). -/
def logBankSwap : Prop := Swaps .logBankSwap fun s => s.log.minWords ≤ s.log.fillWords

/-- They swap too when a packet has waited TIMEOUT us (R211). -/
def logSwapTimeout : Prop := Swaps .logSwapTimeout fun s => s.logWaited = true

/-- A read of dword 0 of a unit takes the next read word, or the idle word; a burst reads dword by dword (R213, R214). -/
def logRead : Prop := ∀ dword count s, HostUp s → Answers (.logRead dword count) s fun t =>
  t.out = .readData (s.log.readDwords dword count).1 :: s.out ∧ t.log = (s.log.readDwords dword count).2 ∧
  (count = 1 → dword % 8 ≠ 0 → t.out = .readData [fld s.log.last (32 * (dword % 8)) 32] :: s.out ∧ t.log = s.log) ∧
  (count = 1 → dword % 8 = 0 → match s.log.draining with
    | [] => t.out = .readData [0xF0000000] :: s.out
    | w :: l => t.out = .readData [fld w.word 0 32] :: s.out ∧ t.log.draining = l)

/-- The loss counters are cleared by a read (R8, R212). -/
def logLostPktsRead : Prop := ∀ s, HostUp s → Answers .logLostPktsRead s fun t =>
  t.out = .readData [s.log.lostPkts] :: s.out ∧ t.log = { s.log with lostPkts := 0 }

def logLostWordsRead : Prop := ∀ s, HostUp s → Answers .logLostWordsRead s fun t =>
  t.out = .readData [s.log.lostWords] :: s.out ∧ t.log = { s.log with lostWords := 0 }

/-- A temperature is recorded. One that has moved by more than CAL_DT since the tables were formed has them formed anew at once, and
one that has since the last round starts a round, or holds one where a round is in progress or hot calibration may not run (R219,
R220, R222).
The model's choice, no rule of the spec, where the spec leaves open: log entry 40. -/
def laneTempRead : Prop := ∀ (lane : LaneId) (c : BitVec 16) s, Powered s →
  let l := s.calLane lane.val
  let go : Prop := s.moved l.last.toInt c.toInt = true ∧ s.cal.en = true
  Answers (.laneTempRead lane c) s fun t =>
    let m := t.calLane lane.val
    m.now = c ∧ m.stale = t.staleNow lane.val ∧
    m.interp = (if s.moved l.interpTemp c.toInt then (List.range 19).map fun i => (i, s.interpolated lane.val i c.toInt) else l.interp) ∧
    (go → l.inRound = true ∨ s.hotOk = false → m.pending = true ∧ m.inRound = l.inRound ∧ m.last = l.last) ∧
    (go → l.inRound = false → s.hotOk = true → m.inRound = true ∧ m.pending = false ∧ m.last = c ∧ m.todo = l.roundItems) ∧
    (¬go → l.pending = false → m.inRound = l.inRound ∧ m.last = l.last ∧ m.pending = false)

/-- At a safe instant of its item the table that the move formed is installed whole; elsewhere nothing changes (R180, R222).
The model's choice, no rule of the spec, where the spec leaves open: log entry 40. -/
def interpolatedTableInstall : Prop := ∀ (lane : LaneId) (item : Fin 19) s, Powered s →
  Answers (.interpolatedTableInstall lane item) s fun t =>
    match SMap.get? (s.calLane lane.val).interp item.val, s.safeItem lane.val item.val with
    | some x, true =>
      (item.val < 17 → (t.tap (2 * (17 * lane.val + item.val))).taps = x.t1.map (BitVec.ofNat 7) ∧
        (t.tap (2 * (17 * lane.val + item.val) + 1)).taps = x.t2.map (BitVec.ofNat 7)) ∧
      (17 ≤ item.val →
        (t.tim (2 * lane.val + (item.val - 17))).binS = x.t1.map (BitVec.ofNat 16) ∧
        (t.tim (2 * lane.val + (item.val - 17))).binP = x.t2.map (BitVec.ofNat 16) ∧
        (t.tim (2 * lane.val + (item.val - 17))).tblSeq = (s.tim (2 * lane.val + (item.val - 17))).tblSeq + 1) ∧
      (t.calLane lane.val).interp = SMap.del (s.calLane lane.val).interp item.val
    | _, _ => t = s

/-- The next item of a round begins once what it needs is free, claimed for calibration: a channel's with the copy into the spare,
another in place. An item that a context claims, or a crew's channel on a lane with no free spare, is deferred. A Survey run
takes its items in place, in order (R218, R223, R224, R232, R234).
The model's choice, no rule of the spec, where the spec leaves open: log entry 38. -/
def calItemStart : Prop := ∀ (lane : LaneId) s, Powered s →
  let k := lane.val
  let l := s.calLane k
  Answers (.calItemStart lane) s fun t =>
    let m := t.calLane k
    match l.svTodo, l.todo with
    | some (i :: r), _ =>
      if s.cal.surveyBusy = true ∧ s.refSpan = false ∧ l.canStart i = true then
        m.svTodo = some r ∧
        if 16 ≤ i ∧ s.claim (itemClaim k i) < 16 then m.active = l.active ∧ m.deferCnt = satInc l.deferCnt
        else m.active = l.active ++ [i] ∧ m.phase = 5 ∧ (16 ≤ i → t.claim (itemClaim k i) = 16)
      else t = s
    | none, i :: r =>
      if l.inRound = true ∧ s.hotOk = true ∧ l.canStart i = true then
        m.todo = r ∧
        if i < 16 ∧ l.noSpare = true then
          if (s.crewOf (16 * k + i)).isSome = true then
            m.deferred = l.deferred ++ [i] ∧ m.deferCnt = satInc l.deferCnt ∧ m.active = l.active
          else m.active = l.active ++ [i] ∧ m.phase = 5
        else if s.claim (itemClaim k i) ≠ 31 then
          m.deferred = l.deferred ++ [i] ∧ m.deferCnt = satInc l.deferCnt ∧ m.active = l.active
        else
          m.active = l.active ++ [i] ∧ t.claim (itemClaim k i) = 16 ∧ m.phase = (if i < 16 then 1 else 5) ∧
          (i < 16 → m.item = BitVec.ofNat 5 i ∧
            (t.act (17 * k + 16)).applied = (s.act (17 * k + i)).applied)
      else t = s
    | _, _ => t = s

/-- The spare, or the channel on the way back, begins to shadow: at the granule boundary at which a running crew stands, and at once
without one. Elsewhere nothing changes (R224). -/
def handoverShadowStart : Prop := ∀ (lane : LaneId) s, Powered s →
  let l := s.calLane lane.val
  Answers (.handoverShadowStart lane) s fun t =>
    if (l.phase = 1 ∨ l.phase = 4) ∧ l.shadowFrom = none then
      match s.shadowStart (16 * lane.val + l.item.toNat) with
      | none => t = s
      | some (f, x) => t.calLane lane.val = (if l.phase = 1 then
          { l with phase := 2, carries := l.item, spState := 1, shadowFrom := some f, shadowEnd := x }
        else { l with shadowFrom := some f, shadowEnd := x })
    else t = s

/-- Once the shadow has ended each path switches at its first switch instant: with both on the spare the handover is complete, with
both back the channel carries its own traffic with its new tables, and the spare is free. At any other instant nothing switches
(R224 to R226). -/
def handoverSwitch : Prop := ∀ (lane : LaneId) fu s, Powered s →
  let k := lane.val
  let l := s.calLane k
  let j := l.item.toNat
  Answers (.handoverSwitch lane fu) s fun t =>
    match s.shadowOver k with
    | none => t = s
    | some f =>
      if fu < f ∨ s.rnow < fu then t = s
      else
        let d := l.toSwitch false && decide (s.switchAt k j false f = some fu)
        let b := l.toSwitch true && decide (s.switchAt k j true f = some fu)
        if l.phase = 2 then
          (t.calLane k).driveSw = (l.driveSw || d) ∧ (t.calLane k).strobeSw = (l.strobeSw || b) ∧
          (d = true → ∃ w, (t.calLane k).driveWas = some w ∧ w.at_ = fu) ∧
          (b = true → ∃ w, (t.calLane k).strobeWas = some w ∧ w.at_ = fu) ∧
          if (l.driveSw || d) = true ∧ (l.strobeSw || b) = true then
            (t.calLane k).phase = 3 ∧ (t.calLane k).spState = 2 ∧ (t.calLane k).handovers = l.handovers + 1
          else (t.calLane k).phase = 2 ∧ (t.calLane k).spState = l.spState
        else if l.phase = 4 then
          (t.calLane k).driveSw = (l.driveSw && !d) ∧ (t.calLane k).strobeSw = (l.strobeSw && !b) ∧
          (∀ n, l.newTaps = some n →
            (l.driveSw = true → d = true → (t.tap (2 * (17 * k + j))).taps = n.1.map (BitVec.ofNat 7)) ∧
            (l.strobeSw = true → b = true → (t.tap (2 * (17 * k + j) + 1)).taps = n.2.map (BitVec.ofNat 7))) ∧
          if (l.driveSw && !d) = false ∧ (l.strobeSw && !b) = false then
            (t.calLane k).spState = 0 ∧ (t.calLane k).carries = 31 ∧ (t.calLane k).handovers = l.handovers + 1 ∧
            (t.calLane k).active = l.active.filter fun i => i ≠ j
          else (t.calLane k).phase = 4 ∧ (t.calLane k).spState = l.spState
        else t = s

/-- A measurement in place that passes installs its tables and gives PASS; one that fails gives FAIL, or LANE_FAULT for a channel or
the spare of a lane that has failed before, and retires a spare. One on the spare that passes goes on to the return; the
first failure of the lane leaves the channel spared, a later one is a lane fault and an event of source 49. A histogram that
is none, or of an item that is not measured, changes nothing (R179, R228 to R231, R298). -/
def vernierMeasurementDone : Prop := ∀ (lane : LaneId) (item : Fin 19) h1 h2 s, Powered s →
  let k := lane.val
  let i := item.val
  let l := s.calLane k
  let x := s.measure k i h1 h2
  let n := if i < 17 then 96 else 32
  let fault : Word32 := placeN 32 0 k ||| placeN 32 4 i ||| placeN 32 9 l.firstFail
  Answers (.vernierMeasurementDone lane item h1 h2) s fun t =>
    let m := t.calLane k
    if l.active.contains i = false ∨ histOk n h1 = false ∨ histOk n h2 = false then t = s
    else if l.phase = 5 then
      m.active = (l.active.filter fun j => j ≠ i) ∧
      if x.1 = true then
        (i < 17 → (t.tap (2 * (17 * k + i))).taps = x.2.1.map (BitVec.ofNat 7) ∧
          (t.tap (2 * (17 * k + i) + 1)).taps = x.2.2.map (BitVec.ofNat 7)) ∧
        (17 ≤ i → (t.tim (2 * k + (i - 17))).binS = x.2.1.map (BitVec.ofNat 16) ∧
          (t.tim (2 * k + (i - 17))).binP = x.2.2.map (BitVec.ofNat 16)) ∧
        SMap.get (fun _ => 1) m.results i = 0
      else
        (∀ c, t.tap c = s.tap c) ∧
        SMap.get (fun _ => 0) m.results i = (if i < 17 ∧ l.fails ≠ 0 then 3 else 1) ∧
        (i = 16 → l.fails = 0 → m.retired = true) ∧
        (i < 17 → l.fails ≠ 0 → m.laneFault = true ∧ Reported s t 49 fault)
    else if l.phase = 3 then
      if x.1 = true then m = { l with phase := 4, newTaps := some x.2 }
      else if l.fails ≠ 0 then
        m.phase = 4 ∧ m.newTaps = none ∧ m.laneFault = true ∧ SMap.get (fun _ => 0) m.results i = 3 ∧ Reported s t 49 fault
      else
        m.spState = 3 ∧ m.fails = 1 ∧ m.firstFail = i ∧ SMap.get (fun _ => 0) m.results i = 2 ∧
        m.active = l.active.filter fun j => j ≠ i
    else t = s

/-- Slots that have changed are saved to flash, at most once per minute (R221). -/
def slotFlashSave : Prop := ∀ s, Powered s → Answers .slotFlashSave s fun t =>
  if s.cal.unsaved = true ∧ ∀ x, s.cal.savedAt = some x → x + 96000000000 ≤ s.now then
    t.cal = { s.cal with
      unsaved := false
      flashSlots := s.cal.slots
      flashTemps := s.cal.temps
      savedAt := some s.now }
  else t = s

/-- A request starts a round on each lane it names, or holds one where a round is in progress (R220, R236). -/
def Rounds (s t : State) (lanes : BitVec 16) : Prop := ∀ k < 16, t.calLane k =
  if bit lanes k then
    (if (s.calLane k).inRound then { s.calLane k with pending := true } else (s.calLane k).startRound)
  else s.calLane k

/-- CAL_REQUEST in another mode than DOCK, RUN or HOLD completes NOT_READY and within a loss of the reference REF_ABSENT; else it
starts rounds and waits for their ends, at once OK where it names no lane (R219, R236). -/
def calRequest : Prop := ∀ h (lanes : BitVec 16) s, Serves s (.calRequest h lanes) h (fun r => bit r.perms 7) →
  Answers (.calRequest h lanes) s fun t =>
    if s.mode ≠ .dock ∧ s.mode ≠ .run ∧ s.mode ≠ .hold then Refuses s t h stNotReady
    else if s.refSpan = true then Refuses s t h stRefAbsent
    else Rounds s t lanes ∧ (lanes = 0 → Decided t h stOk) ∧
      (lanes ≠ 0 → (∀ r ∈ s.cal.reqs, r.left ≠ 0) → Waits t h)

/-- CAL_REQ starts rounds in the same way where hot calibration may run (R219, R236). -/
def calReq : Prop := ∀ (v : Word32) s, HostUp s → Answers (.calReq v) s fun t =>
  if s.hotOk = true then Rounds s t (fld v 0 16) else t = s

/-- CAL_DT takes 8 to 160 and refuses another value (R237). -/
def calDtWrite : Prop := ∀ (v : Word32) s, HostUp s → Answers (.calDtWrite v) s fun t =>
  t.cal = (if 8 ≤ fldN v 0 8 ∧ fldN v 0 8 ≤ 160 then { s.cal with dt := fld v 0 8 } else { s.cal with refused := true })

/-- A Survey run whose steps are over ends in DOCK with its results: a channel within its limits takes its corrections, one outside
fails its lane, as does an ADC or an item that failed; with VREF_CAL outside its limits nothing is applied. Until then
nothing changes (R234, R235, R237).
The model's choice, no rule of the spec, where the spec leaves open: log entries 41 and 153. -/
def surveyRunEnd : Prop := ∀ (vref : Int) (fits : List LevelFit) adcFits (adcFail : BitVec 16) s, Powered s →
  Answers (.surveyRunEnd vref fits adcFits adcFail) s fun t =>
    if s.cal.surveyBusy = false ∨ s.dev.base ≠ .survey ∨ s.surveyOver (vrefOk vref) = false then t = s
    else
      t.dev.base = .dock ∧ t.cal.surveyBusy = false ∧ t.cal.surveyDone = true ∧ t.cal.vrefBad = !vrefOk vref ∧
      t.cal.surveySeq = s.cal.surveySeq + 1 ∧
      (∀ k < 16, bit t.cal.laneFail k = (vrefOk vref && ((List.range 16).any (fun j => levelFails fits (16 * k + j)) ||
        bit adcFail k || (s.calLane k).svFail))) ∧
      (vrefOk vref = false → t.cal.corr = s.cal.corr) ∧
      ∀ f ∈ fits, vrefOk vref = true → levelFails fits f.chan.val = false →
        (∀ g ∈ fits, g.chan = f.chan → g.dac % 16 = f.dac % 16 → g = f) →
        SMap.get (fun _ => (0, 0)) t.cal.corr (16 * f.chan.val + f.dac % 16) = (f.offset, f.gain)

end Sys2Proof.Machine.Completes

namespace Sys2Proof.Machine.Completes

/-! Erzal: links, event flits, enumeration, skew, roles, the stroke and Easy-All (R239 to R265). -/

/-- The regatta tick of a received flit. -/
def tickOf (s : State) (rx : EvtRx) : Nat := resolveTs s.rtick rx.ts

/-- A flit is late: it came by replay only, or its apply instant has passed (R244). -/
def lateRx (s : State) (rx : EvtRx) (due : Nat → Option Nat) : Bool :=
  rx.replayed || (due (tickOf s rx)).any fun d => decide (d < s.rtick)

/-- Event row i takes a flit in three ways (R242 to R244, R246). A link that is not UP gives nothing. Of one copies with a bad CRC
are counted: with no good copy the flit is rejected, and a CROSS link passes none. From below, under the top of the tree, it goes up
as it came; from above, or at the top, it goes down as it came and P says what the device makes of it. A late one is counted and an
event of source 50 + n. -/
def Takes (i : Instr) (rx : EvtRx) (typ : Nat) (due : Nat → Option Nat) (P : State → State → Bool → Prop) : Prop :=
  ∀ s, Powered s →
  let p := rx.port.val
  let r := s.port p
  let marks (t : State) : Prop :=
    (t.port p).crc = satAdd r.crc ((!rx.good1).toNat + (!rx.good2).toNat) ∧
    (lateRx s rx due = true → (t.port p).late = satInc r.late ∧ t.ez.lateEvent = true ∧
      Reported s t (50 + p) (portDetail false typ))
  (typ = 7 → r.role ≠ 3) →
  Answers i s fun t =>
    if r.up = false then t = s
    else if r.role = 3 ∨ rxReceived rx = false then
      (t.port p).crc = satAdd r.crc ((!rx.good1).toNat + (!rx.good2).toNat) ∧ KeepsAllBut [.out, .ports] s t ∧
      (r.role ≠ 3 → Out.event p (evtFlit 9 s.ez.id (tsOf s.rtick) (place 30 0 r.rxSeq ||| placeB 30 12 true)) ∈ t.out)
    else if r.role ≠ 1 ∧ s.isTop = false then
      marks t ∧ KeepsAllBut ezEventParts s t ∧
      ∀ q ∈ s.portsOf 1, Out.event q (evtFlit typ rx.src rx.ts rx.payload) ∈ t.out
    else
      marks t ∧ P s t (lateRx s rx due) ∧
      ∀ q ∈ s.portsOf 2, Out.event q (evtFlit typ rx.src rx.ts rx.payload) ∈ t.out

/-- What the message of a data flit does here, in the state s whose link has acknowledged it (R240, R248 to R259, R263, R264,
R269, R279, R284, R287). -/
def Consumed (s t : State) (src : BitVec 6) (pl : DataPayload) : Prop :=
  match pl with
  | .completion sq cid st d r0 r1 part sat => ∀ c, s.cmd? sq cid = some c → c.stage = .remote →
      ∃ x ∈ t.host.inflight, x.names sq cid = true ∧ x.stage = .committed ∧ x.status = st ∧ x.detail = d ∧ x.r0 = r0 ∧
        x.r1 = r1 ∧ x.part = part ∧ x.fcsat = sat
  | .command sq e rec => ∃ c ∈ t.host.inflight, c.names sq (fld e 32 16) = true ∧ c.stage = .started ∧ c.raw = some e ∧
      c.entry = rec
  | .abortCmd sq cid => (∀ c, s.cmd? sq cid = some c → t = s.resetHere c) ∧
      (s.cmd? sq cid = none → s.xferOf sq cid = none → t = s)
  | .apWrite n o v => t = (s.regWrite o v).sendTo src.toNat (.apDone n)
  | .apRead n o => t = (s.regRead o).2.sendTo src.toNat (.apData n (s.regRead o).1)
  | .apDone n => ∀ l, s.host.ap = .write n src :: l → l.all (fun a => a = .write n src) = true → t.host.ap = l
  | .apData n v => s.host.ap = [.read n src none] → t.host.ap = [] ∧ Out.readData [v] ∈ t.out
  | .frameLoad f y => y < 262144 → ∃ x, t.ez.frameLoad = some (f.toNat, x) ∧ s.now < x ∧ x ≤ s.now + 3 * 262144 ∧
      ((x : Int) + s.ez.lead) % 262144 = 0
  | .generation f co v => s.ez.standby = true → t.ez.genPend = some (f, co, v)
  | .genCommit n crc => ∀ f co v, s.ez.genPend = some (f, co, v) → t.ez.genPend = none ∧
      t.ez.gen = (if crc = genCrc f co v n then n else s.ez.gen)
  | .strokeCopy v => t.ez.strokeReg = v ∧ t.ez.stroke = decide (strokeId v = s.ez.id.toNat)
  | .strokeGrant _ => s.ez.stroke = false → t.ez.stroke = true ∧ t.ez.strokeReg = place 32 0 s.ez.id
  | .surveyAsk => if s.isTop then t.ez.surveyBusy = true else t = s
  | .surveyStart => t.ez.surveyBusy = true
  | .ttAsk => match s.portTo 1 src.toNat with
    | some p => t = s.sendTo src.toNat (.ttReport (s.port p).tt)
    | none => t = s
  | .ttReport _ => match s.portTo 2 src.toNat with
    | some p => s.ez.surveyBusy = true → (t.port p).ttOver = true
    | none => t = s
  | .ttResult d x => match s.portTo 1 src.toNat with
    | some p => t.port p = { s.port p with ttOver := true, delay := BitVec.ofInt 32 d, offset := BitVec.ofInt 32 x }
    | none => t = s
  | .linkTheta c x => SMap.get? t.ez.links c.toNat = some x
  | .skewTarget x => t.ez.svResult = some x
  | .lost ids _ => t.ez.members = s.ez.members &&& ~~~ids ∧
      ∀ c ∈ s.host.inflight, c.stage = .remote → bit ids c.source.toNat = true →
        ∃ d ∈ t.host.inflight, d.names c.sq c.cid = true ∧ d.stage = .committed ∧ d.status = stAborted
  | .reach ids => t.ez.members = ids
  | .reparent c p => SMap.get? t.ez.tree c.toNat = some p.toNat
  | .heats on => bit t.ez.heatIds src.toNat = on
  | .coupledJoin c on => bit (SMap.get (fun _ => 0) t.ez.couplings c.toNat : Word64) src.toNat = on
  | .coupledAdmit c sq cid start decl _ => match s.couplingEngine c with
    | none => t.engines = s.engines
    | some e => (s.eng e).heat = none → ∀ g, (t.eng e).heat = some g →
        g.sq = sq ∧ g.cid = cid ∧ g.start = start.toNat ∧ g.decl = decl ∧ g.phase = .waiting
  | .coupledAnswer c i st d => match s.couplingEngine c with
    | none => t = s
    | some e => ∀ h g, (s.eng e).heat = some h → (t.eng e).heat = some g → g.launchAt = none → g.asking = true ∨ h.awaits = true →
        (i.toNat, st, d) ∈ g.answers
  | .coupledWithdraw c => match s.couplingEngine c with
    | none => t = s
    | some e => ∀ h, (s.eng e).heat = some h → h.awaits = true → (t.eng e).heat = none
  | .coupledEnd c i st sat => match s.couplingEngine c with
    | none => t = s
    | some e => ∀ h, (s.eng e).heat = some h →
        ∃ g, (t.eng e).heat = some g ∧ g.peerEnds = h.peerEnds ++ [(i.toNat, st, sat)]
  | .coupledDone sq cid _ => ∀ e h, (s.eng e).heat = some h → h.told = true → h.sq = sq → h.cid = cid → h.ended ≠ none →
      (t.eng e).heat = none
  | .coupledResume c i => t = s.memberResume c i.toNat
  | .coupledAbort c k => match s.couplingEngine c with
    | none => t = s
    | some e => ∀ h, (s.eng e).heat = some h → h.ended = none →
        if (s.eng e).st = .held then (t.eng e).st = .halted
        else ∃ g, (t.eng e).heat = some g ∧ g.abort = some (min (h.playedAt k) (h.abort.getD (h.playedAt k)))
  | .freeClaims c => ∀ x, s.claim x = c.toNat → t.claim x = 31
  | .other => t = s

/-- A bad flit is counted and rejected, one received before acknowledged again, and one out of order rejected. One in order is
acknowledged: for this device its message takes effect, for another it goes on by the port towards it, and with no such link that is
UP it is lost. A CROSS link carries none (R240, R246, R248).
The model's choice, no rule of the spec, where the spec leaves open: log entries 127, 142 and 148. -/
def ezDataFlit : Prop := ∀ (p : PortId) flit pl s, Powered s →
  let r := s.port p.val
  let link (reject : Bool) (seq : BitVec 12) : Out :=
    .event p.val (evtFlit 9 s.ez.id (tsOf s.rtick) (place 30 0 seq ||| placeB 30 12 reject))
  let acked : State := (s.linkEvent p.val false (flitSeq flit)).updPort p.val fun r => { r with rxSeq := r.rxSeq + 1 }
  Answers (.ezDataFlit p flit pl) s fun t =>
    if r.up = false ∨ r.role = 3 then t = s
    else if flitGood flit = false then
      (t.port p.val).crc = satInc r.crc ∧ (t.port p.val).rxSeq = r.rxSeq ∧ link true r.rxSeq ∈ t.out ∧
      KeepsAllBut [.out, .ports] s t
    else if flitSeq flit = r.rxSeq then
      if flitDest flit = s.ez.id then t = acked.consume (flitSrc flit) pl ∧ Consumed acked t (flitSrc flit) pl
      else
        (t.port p.val).rxSeq = r.rxSeq + 1 ∧ link false (flitSeq flit) ∈ t.out ∧ KeepsAllBut [.out, .ports] s t ∧
        match s.routePort (flitDest flit) with
        | none => t = acked
        | some q =>
          if (s.port q).up = false then t = acked
          else if (s.port q).unacked.length < 256 ∧ (s.port q).waiting = [] then
            Out.data q (flitWith flit (s.port q).txSeq) ∈ t.out
          else (t.port q).unacked.length + (t.port q).waiting.length =
            (s.port q).unacked.length + (s.port q).waiting.length + 1
    else
      KeepsAllBut [.out, .ports] s t ∧ (t.port p.val).rxSeq = r.rxSeq ∧
      (if (r.rxSeq - flitSeq flit).toNat ≤ 2048 then link false (flitSeq flit) else link true r.rxSeq) ∈ t.out

/-- What is not acknowledged within a microsecond is sent again, in order, eight times at most (R240). -/
def ezReplayTimeout : Prop := ∀ (p : PortId) s, Powered s →
  let r := s.port p.val
  Answers (.ezReplayTimeout p) s fun t =>
    if r.sentAt + 1600 ≤ s.now ∧ r.unacked ≠ [] ∧ r.replays < 8 then
      t.out = (r.unacked.map fun u => Out.data p.val u.2).reverse ++ s.out ∧
      t.port p.val = { r with replays := r.replays + 1, sentAt := s.now }
    else t = s

/-- A link that goes DOWN is counted, an event of source 50 + n, and trains again; what waited on it is lost, and so are the members
behind it, or those above it, and the commands sent to them (R245, R248, R249, R298).
The model's choice, no rule of the spec, where the spec leaves open: log entry 42. -/
def ezLinkDown : Prop := ∀ (p : PortId) s, Powered s →
  let r := s.port p.val
  let lost : Word64 := if r.role = 2 then s.ez.members &&& r.route
    else if r.role = 1 then s.ez.members &&& ~~~s.ownSide else 0
  Answers (.ezLinkDown p) s fun t =>
    if r.up = false then t = s
    else
      (t.port p.val).st = 1 ∧ (t.port p.val).width = 0 ∧ (t.port p.val).down = satInc r.down ∧
      (t.port p.val).downAt = s.now ∧ (t.port p.val).unacked = [] ∧ (t.port p.val).waiting = [] ∧
      Reported s t (50 + p.val) (portDetail true 0) ∧ t.ez.members = s.ez.members &&& ~~~lost ∧
      ∀ c ∈ s.host.inflight, c.stage = .remote → bit lost c.source.toNat = true →
        ∃ d ∈ t.host.inflight, d.names c.sq c.cid = true ∧ d.stage = .committed ∧ d.status = stAborted

/-- A link that has trained is UP with 1, 2, 4 or 8 lanes, unless enumeration excluded it: the members behind it are reached again,
and an orphan has its parent back (R239, R248, R265). -/
def ezLinkTrained : Prop := ∀ (p : PortId) (lanes : Fin 4) farId farPort s, Powered s →
  let r := s.port p.val
  Answers (.ezLinkTrained p lanes farId farPort) s fun t =>
    if r.up = true then t = s
    else
      (t.port p.val).st = (if r.st = 3 then 3 else 2) ∧ (t.port p.val).width = BitVec.ofNat 4 (2 ^ lanes.val) ∧
      (t.port p.val).farId = farId ∧ (t.port p.val).farPort = farPort ∧ (t.port p.val).rxSeq = 0 ∧
      (t.port p.val).replays = 0 ∧
      (r.role ≠ 2 ∨ r.st = 3 → (t.port p.val).txSeq = 0 ∧ (t.port p.val).unacked = [] ∧ t.ez.members = s.ez.members) ∧
      (r.role = 2 → r.st ≠ 3 → t.ez.members = s.ez.members ||| (r.route &&& s.ez.all)) ∧
      t.ez.orphan = (if r.role = 1 then false else s.ez.orphan)

/-- Easy-All with an action has reached the device: EZ_EA_STATUS latches the first raiser, the stricter of the carried action and
the device's own holds every RUNNING engine at once, not resumable, or takes the device to SAFE (R261, R262). -/
def Latched (s t : State) (carried : Bool) (kind id num time : Nat) : Prop :=
  let safe := carried || bit s.ea.cfg 0
  t.ea = s.ea.raise safe kind id num time ∧
  (safe = false → ∀ e, (s.eng e).st = .running →
    (t.eng e).st = .held ∧ (t.eng e).resumable = false ∧ (t.eng e).holdCause = 5) ∧
  (safe = true → s.dev.base = .boot → t.dev.safePend = true) ∧
  (safe = true → s.dev.base ≠ .boot → s.dev.base ≠ .stop → t.dev.base = .safe)

/-- This device tells every link of the tree that it has raised Easy-All (R261). -/
def Floods (s t : State) (kind : Nat) : Prop :=
  ∀ q ∈ s.portsOf 1 ++ s.portsOf 2,
    Out.event q (evtFlit 0 s.ez.id (tsOf s.rtick) (eaPayload (bit s.ea.cfg 0) kind 0)) ∈ t.out

/-- EASYALL takes effect at once where a copy is good, and goes on on every other link of the tree; it latches the device with the
stricter action, or clears it. With no good copy it is rejected, and one that comes again is late. A CROSS link carries none (R242
to R244, R246, R261, R262). -/
def ezEvtEasyall : Prop := ∀ (rx : EvtRx) s, Powered s →
  let p := rx.port.val
  let r := s.port p
  Answers (.ezEvtEasyall rx) s fun t =>
    if r.up = false then t = s
    else
      (t.port p).crc = satAdd r.crc ((!rx.good1).toNat + (!rx.good2).toNat) ∧
      if r.role = 3 then KeepsAllBut [.ports] s t
      else if rxReceived rx = false then
        KeepsAllBut [.out, .ports] s t ∧
        Out.event p (evtFlit 9 s.ez.id (tsOf s.rtick) (place 30 0 r.rxSeq ||| placeB 30 12 true)) ∈ t.out
      else
        (rx.replayed = true → (t.port p).late = satInc r.late ∧ t.ez.lateEvent = true ∧
          Reported s t (50 + p) (portDetail false 0)) ∧
        (∀ q ∈ s.portsOf 1 ++ s.portsOf 2, q ≠ p → Out.event q (evtFlit 0 rx.src rx.ts rx.payload) ∈ t.out) ∧
        if fldN rx.payload 1 3 = 7 then
          t.ea = { s.ea with latched := false, safe := false, ignoreTo := some (s.now + 1600) }
        else Latched s t (bit rx.payload 0) (fldN rx.payload 1 3) rx.src.toNat (fldN rx.payload 4 7) (tickOf s rx)

/-- A FIRE of another device becomes known to an enabled group (R194, R196). -/
def ezEvtFire : Prop := ∀ rx : EvtRx, Takes (.ezEvtFire rx) rx 1 (fun k => some (k + 320)) fun s t _ =>
  let g := fldN rx.payload 0 4
  t.group g = (if (s.group g).st = .disabled then s.group g else { s.group g with fires := (s.group g).fires ++
    [⟨tickOf s rx, fldN rx.payload 13 17, rx.src.toNat, fldN rx.payload 4 2, fldN rx.payload 6 7⟩] })

/-- An arm or disarm by the group's master waits for its apply instant; a late one is applied on arrival, after a fire whose commit
has passed; from another sender it is a mismatch (R195, R244). -/
def ezEvtArm : Prop := ∀ rx : EvtRx, Takes (.ezEvtArm rx) rx 2 (fun k => some (k + 320)) fun s t late =>
  let g := fldN rx.payload 0 4
  let eng := fldN rx.payload 5 7
  let k := tickOf s rx
  if (s.group g).masteredBy (bit rx.payload 12) rx.src.toNat eng = false then
    t.trg.mismatch = true ∧ (late = false → t.ez.ordered = s.ez.ordered)
  else if late = true then
    (∀ f, (s.group g).firstFire = some f → s.rtick ≤ f.tick + 320) →
      t.group g = (if bit rx.payload 4 then (s.group g).disarm else (s.group g).arm k s.rtick)
  else t.ez.ordered = s.ez.ordered ++ [⟨k + 320,
    if bit rx.payload 4 then .disarm g k (bit rx.payload 12) rx.src.toNat eng
    else .arm g k (bit rx.payload 12) rx.src.toNat eng⟩]

/-- A done instant waits for its apply instant; a late one counts on arrival (R198, R244). -/
def ezEvtDone : Prop := ∀ rx : EvtRx, Takes (.ezEvtDone rx) rx 3 (fun k => some (k + 320)) fun s t late =>
  if late = true then SMap.get (fun _ => 0) (t.group (fldN rx.payload 0 4)).dones rx.src.toNat = tickOf s rx
  else t.ez.ordered = s.ez.ordered ++ [⟨tickOf s rx + 320, .done (fldN rx.payload 0 4) rx.src.toNat (tickOf s rx)⟩]

/-- A regatta flag change is applied 320 ticks after its instant, a late one on arrival (R100, R244). -/
def ezEvtRflag : Prop := ∀ rx : EvtRx, Takes (.ezEvtRflag rx) rx 4 (fun k => some (k + 320)) fun s t late =>
  t.flags.regPend = s.flags.regPend ++
    [⟨if late then s.rtick else tickOf s rx + 320, fldN rx.payload 0 4, bit rx.payload 4⟩]

/-- A CREW event of another member of a coupling does to the engine of that coupling what its operation says: it keeps a summary, a
LEAD_COND or an arrival at a barrier, chooses cycle 0 or the resume tick, asks for a hold (the earliest of several counts, and a
member that has not launched keeps it), or has the engine fault. A late one
makes the crew fault, and a late summary or LEAD_COND is not taken (R99, R102, R105, R244, R263).
The model's choice, no rule of the spec, where the spec leaves open: log entries 28 and 113. -/
def ezEvtCrew : Prop := ∀ rx : EvtRx,
  let op := fldN rx.payload 7 3
  let data := fldN rx.payload 10 20
  let src := rx.src.toNat
  Takes (.ezEvtCrew rx) rx 5 (fun k => some (crewDue op data k)) fun s t late =>
    let k := tickOf s rx
    (s.couplingEngine (fld rx.payload 0 7) = none ∨ rx.src = s.ez.id → t.engines = s.engines) ∧
    ∀ e h, s.couplingEngine (fld rx.payload 0 7) = some e → rx.src ≠ s.ez.id → (s.eng e).heat = some h →
      (late = true → (t.eng e).active = true → ∃ x, (t.eng e).peerFaultAt = some x ∧ x ≤ s.rtick * 512) ∧
      (op = 0 → ∃ g, (t.eng e).heat = some g ∧ g.summaries = (if late then h.summaries else
        ⟨src, k, data.testBit 0, data.testBit 1⟩ :: h.summaries)) ∧
      (op = 1 → ∃ g, (t.eng e).heat = some g ∧ g.leadConds = (if late then h.leadConds else
        (k, decide (data % 2 = 1)) :: h.leadConds)) ∧
      (op = 2 → h.awaits = true → (∃ g, (t.eng e).heat = some g ∧ g.launchAt = some (k * 512)) ∧
        (t.eng e).st = (if s.ea.latched then .held else .running)) ∧
      (op = 3 → (s.eng e).st = .running →
        (t.eng e).heat = some { h with hold := match h.hold with
          | some q => if h.playedAt k < q.at_ then some ⟨h.playedAt k, BitVec.ofNat 3 data⟩ else some q
          | none => some ⟨h.playedAt k, BitVec.ofNat 3 data⟩ }) ∧
      (op = 3 → h.awaits = true → ∃ g, (t.eng e).heat = some g ∧ g.hold.isSome = true) ∧
      (op = 4 → (s.eng e).st = .held → (t.eng e).heat = some { h with resumeAt := some (k * 512) }) ∧
      (op = 5 → late = false → (s.eng e).active = true → (s.eng e).peerFaultAt = none → (s.eng e).peerDecAt = none →
        if data % 256 = 0 ∨ data % 256 = 0x12 ∨ data % 256 = 0x13 then (t.eng e).peerFaultAt = some ((k + 384) * 512)
        else (t.eng e).peerDecAt = some (k * 512)) ∧
      (op = 6 → ∃ g, (t.eng e).heat = some g ∧ (src, data % 16, k * 512) ∈ g.barPeers)

/-- A reference loss elsewhere asks the RUNNING heats that are coupled with that member to hold, and a standby whose reference is
present takes over from a stroke that lost its own. A new stroke is noted, and asks every coupled RUNNING heat to hold (R258,
R259, R264). -/
def ezEvtHold : Prop := ∀ rx : EvtRx, Takes (.ezEvtHold rx) rx 6 (fun k => some (k + 384)) fun s t _ =>
  let k := tickOf s rx
  let cause := fldN rx.payload 0 3
  let takes : Prop := s.ez.standby = true ∧ strokeId s.ez.strokeReg = rx.src.toNat ∧ s.ref.present = true
  if rx.src = s.ez.id ∨ (cause ≠ 3 ∧ cause ≠ 4) then t.engines = s.engines ∧ t.ez.strokeReg = s.ez.strokeReg
  else if cause = 4 then
    t.ez.strokeReg = place 32 0 rx.src ∧ t.ez.stroke = false ∧ t.ez.standby = false ∧ t.ez.newStrokeFrom = some k ∧
    t.ez.gotCatch = false ∧
    ∀ e h, (s.eng e).coupled = true → (s.eng e).st = .running → (s.eng e).heat = some h → h.hold = none →
      (t.eng e).heat = some { h with hold := some ⟨h.playedAt k, 4⟩ }
  else
    (takes → t.ez.stroke = true ∧ t.ez.standby = false) ∧ (¬takes → t.ez.strokeReg = s.ez.strokeReg) ∧
    ∀ e h, (s.eng e).coupled = true → (s.eng e).st = .running →
      (s.couplingIds (s.eng e).coupling).contains rx.src.toNat = true → (s.eng e).heat = some h → h.hold = none →
      (¬takes → (t.eng e).heat = some { h with hold := some ⟨h.playedAt k, 3⟩ }) ∧
      (takes → ∃ g, (t.eng e).heat = some g ∧ g.hold.isSome = true)

/-- An answer to this device's role request ends it, OK or DENIED, and an OK makes it the stroke where it asked for that. A STROKE
request that names this device is answered; where this device is not the stroke and may grant it, it takes the role. At the root a
DIRECTION request that may be granted gives the member its new parent. Of two requests that meet, the one of the lower ID
proceeds and the other ends ROLE_CONFLICT. A DIRECTION request and its answer cross a CROSS link; there a grant makes the far end
the parent (R250, R259). -/
def ezEvtRole : Prop := ∀ rx : EvtRx,
  let stroke := bit rx.payload 0
  let peer := fldN rx.payload 1 6
  let what := fldN rx.payload 7 2
  let src := rx.src.toNat
  Takes (.ezEvtRole rx) rx 7 (fun _ => none) (fun s t _ =>
    let me := s.ez.id.toNat
    (what = 1 → peer = me → s.ez.roleBusy = true → t.ez.roleBusy = false ∧ t.ez.roleResult = stOk ∧
      (stroke = true → t.ez.stroke = true)) ∧
    (what = 2 → peer = me → s.ez.roleBusy = true → t.ez.roleBusy = false ∧ t.ez.roleResult = stDenied) ∧
    (what ≠ 0 → peer ≠ me → t.ez = { s.ez with lateEvent := t.ez.lateEvent }) ∧
    (what = 0 → stroke = true → peer = me →
      if s.roleMeets src true = true ∧ me < src then t.ez.roleBusy = true ∧ t.ez.stroke = s.ez.stroke
      else
        (s.roleMeets src true = true → t.ez.roleBusy = false ∧ t.ez.roleResult = stRoleConflict ∧
          t.ez.roleConflict = some s.now) ∧
        (∀ q ∈ s.portsOf (if s.isTop then 2 else 1), Out.event q (evtFlit 7 s.ez.id (tsOf s.rtick)
          (rolePayload true src (if s.strokeAmong src then 1 else 2))) ∈ t.out) ∧
        t.ez.stroke = (s.ez.stroke || s.strokeAmong src)) ∧
    (what = 0 → stroke = false → s.isTop = true → (s.port rx.port.val).role = 2 →
      (s.mayReparent src peer = true → SMap.get? t.ez.tree src = some peer) ∧
      (s.mayReparent src peer = false → t.ez.tree = s.ez.tree))) ∧
  ∀ s, Powered s → (s.port rx.port.val).up = true → (s.port rx.port.val).role = 3 →
    let p := rx.port.val
    let me := s.ez.id.toNat
    let meets : Prop := peer = me ∧ s.roleMeets src false = true
    Answers (.ezEvtRole rx) s fun t =>
      (t.port p).crc = satAdd (s.port p).crc ((!rx.good1).toNat + (!rx.good2).toNat) ∧
      if rxReceived rx = false then
        KeepsAllBut [.out, .ports] s t ∧
        Out.event p (evtFlit 9 s.ez.id (tsOf s.rtick) (place 30 0 (s.port p).rxSeq ||| placeB 30 12 true)) ∈ t.out
      else
        (rx.replayed = true → (t.port p).late = satInc (s.port p).late ∧ t.ez.lateEvent = true ∧
          Reported s t (50 + p) (portDetail false 7)) ∧
        if stroke = true ∨ (what = 0 ∧ meets ∧ me < src) ∨ 2 < what then KeepsAllBut ezEventParts s t
        else if what = 0 then
          (meets → t.ez.roleBusy = false ∧ t.ez.roleResult = stRoleConflict ∧ t.ez.roleConflict = some s.now) ∧
          if s.isTop = true then
            (s.mayReparent src peer = true → SMap.get? t.ez.tree src = some peer) ∧
            (s.mayReparent src peer = false → t.ez.tree = s.ez.tree)
          else ∀ q ∈ s.portsOf 1, Out.event q (evtFlit 7 rx.src rx.ts rx.payload) ∈ t.out
        else
          (peer = me → s.ez.roleBusy = true →
            t.ez.roleBusy = false ∧ t.ez.roleResult = (if what = 1 then stOk else stDenied)) ∧
          (what = 1 → peer = me → (t.port p).role = 1 ∧ t.ez.parent = BitVec.ofNat 4 p ∧ t.ez.orphan = false)

/-- The child replies to a survey request at once with its stamps noted, and the parent that gets the reply to its last request goes
on to the next of 1,024 exchanges, or asks for the child's timestamps (R253). -/
def ezEvtTt : Prop := ∀ (rx : EvtRx) (first second : Int) s, Powered s →
  let p := rx.port.val
  let r := s.port p
  let n := fldN rx.payload 1 12
  Answers (.ezEvtTt rx first second) s fun t =>
    if r.up = false then t = s
    else
      (t.port p).crc = satAdd r.crc ((!rx.good1).toNat + (!rx.good2).toNat) ∧
      if rxReceived rx = false then KeepsAllBut [.ports] s t
      else
        (n, first, second) ∈ (t.port p).tt ∧ (∀ x ∈ (t.port p).tt, x.1 = n → x = (n, first, second)) ∧
        if bit rx.payload 0 = false then
          let f := Out.event p (evtFlit 8 s.ez.id (tsOf s.rtick) (rx.payload ||| 1))
          t.out = f :: f :: s.out
        else if s.ez.surveyBusy = true ∧ n + 1 = r.ttSent ∧ r.ttOver = false ∧ r.ttSent ≤ 1024 then
          (t.port p).ttSent = r.ttSent + 1 ∧
          (r.ttSent < 1024 → (t.port p).ttAt = s.now ∧
            Out.event p (evtFlit 8 s.ez.id (tsOf s.rtick) (placeN 30 1 r.ttSent)) ∈ t.out)
        else (t.port p).ttSent = r.ttSent

/-- An acknowledge frees the flits up to its sequence number, and what waited for room is sent; a rejection has what is not
acknowledged sent again, and the event flits of the last microsecond (R240, R244). -/
def ezEvtLink : Prop := ∀ (rx : EvtRx) s, Powered s →
  let p := rx.port.val
  let r := s.port p
  Answers (.ezEvtLink rx) s fun t =>
    if r.up = false then t = s
    else
      (t.port p).crc = satAdd r.crc ((!rx.good1).toNat + (!rx.good2).toNat) ∧
      if rxReceived rx = false then KeepsAllBut [.ports] s t
      else if bit rx.payload 12 = true then
        (∀ u ∈ r.unacked, r.replays < 8 → Out.data p u.2 ∈ t.out) ∧
        (∀ x ∈ r.evts, s.now < x.1 + 1600 → Out.event p x.2 ∈ t.out) ∧ (t.port p).unacked = r.unacked ∧
        (t.port p).replays = (if r.unacked = [] ∨ 8 ≤ r.replays then r.replays else r.replays + 1)
      else
        match r.unacked.findIdx? fun u => u.1 = fld rx.payload 0 12 with
        | none => (t.port p).replays = r.replays ∧ ∀ u ∈ r.unacked, u ∈ (t.port p).unacked
        | some i =>
          (t.port p).replays = 0 ∧ (t.port p).unacked.take (r.unacked.length - (i + 1)) = r.unacked.drop (i + 1) ∧
          (r.waiting = [] → (t.port p).unacked = r.unacked.drop (i + 1))

/-- A reserved type is discarded and counted (R242). -/
def ezEvtReservedType : Prop := ∀ (rx : EvtRx) s, Powered s →
  Answers (.ezEvtReservedType rx) s fun t =>
    if (s.port rx.port.val).up = true then
      t.port rx.port.val = { s.port rx.port.val with crc := satInc (s.port rx.port.val).crc }
    else t = s

/-- The ordered event whose instant has come first is applied, after a fire of its group whose commit has passed: an arm or a disarm
of the group's master, or a done instant. Where none has come nothing changes (R195, R198, R244). -/
def ezOrderedEventApply : Prop := ∀ s, Powered s → Answers .ezOrderedEventApply s fun t =>
  match dueOrd s.rtick s.ez.ordered with
  | none => t = s
  | some o =>
    let early (g : Nat) : Prop := ∀ f, (s.group g).firstFire = some f → o.at_ ≤ f.tick + 320
    match o.ev with
    | .arm g k h id e => early g → t.ez.ordered = dropFirst o s.ez.ordered ∧
        if (s.group g).masteredBy h id e then t.group g = (s.group g).arm k o.at_
        else t.trg.mismatch = true ∧ t.group g = s.group g
    | .disarm g _ h id e => early g → t.ez.ordered = dropFirst o s.ez.ordered ∧
        if (s.group g).masteredBy h id e then t.group g = (s.group g).disarm
        else t.trg.mismatch = true ∧ t.group g = s.group g
    | .done g id k => t.ez.ordered = dropFirst o s.ez.ordered ∧ SMap.get (fun _ => 0) (t.group g).dones id = k

/-- A device cut off from its parent for 1 us is an orphan, and raises Easy-All where EZ_EA_CFG says so (R249, R261). -/
def orphan : Prop := ∀ s, Powered s → Answers .orphan s fun t =>
  if s.ez.orphan = false ∧ (∃ p ∈ List.range 5, (s.port p).role = 1 ∧ (s.port p).up = false ∧ (s.port p).downAt + 1600 ≤ s.now) then
    t.ez.orphan = true ∧
    if bit s.ea.cfg 7 = true then Latched s t (bit s.ea.cfg 0) 4 s.ez.id.toNat 0 s.rtick ∧ Floods s t 4 else t.ea = s.ea
  else t = s

/-- Enumeration starts at the top of the tree while no heat is active, and is refused elsewhere (R247). -/
def ezCtrlEnum : Prop := ∀ s, HostUp s → Answers .ezCtrlEnum s fun t =>
  t.ez = (if s.isTop = true ∧ s.heatsActive = false then { s.ez with enumBusy := true, enumDone := false }
    else { s.ez with refused := true })

/-- A device at the top of its tree starts a survey, with a request on each downstream link, or notes that another is wanted; any
other asks the root for one (R253, R255). -/
def ezCtrlSurvey : Prop := ∀ s, HostUp s → Answers .ezCtrlSurvey s fun t =>
  if s.isTop = false then t = s.sendTo 0 .surveyAsk
  else if s.ez.surveyBusy = true then t = { s with ez := { s.ez with surveyAgain := true } }
  else
    t.ez.surveyBusy = true ∧ t.ez.surveyAgain = false ∧ t.ez.surveyAt = s.now ∧ t.ez.surveyTemp = s.hottest ∧
    t.ez.links = [] ∧ ∀ p ∈ s.portsOf 2, (t.port p).ttSent = 1 ∧ (t.port p).tt = [] ∧
      Out.event p (evtFlit 8 s.ez.id (tsOf s.rtick) (placeN 30 1 0)) ∈ t.out

/-- This device has become the stroke: EZ_STROKE names it and no standby, an event of source 55 names it and the former stroke, and
the coupled RUNNING heats are asked to hold (R258, R259, R298). -/
def TakesStroke (s t : State) : Prop :=
  t.ez.stroke = true ∧ t.ez.standby = false ∧ t.ez.strokeReg = place 32 0 s.ez.id ∧ t.ez.gotCatch = false ∧
  Reported s t 55 (place 32 0 s.ez.id ||| placeN 32 8 (strokeId s.ez.strokeReg)) ∧
  ∀ e h, (s.eng e).coupled = true → (s.eng e).st = .running → (s.eng e).heat = some h →
    ∃ g, (t.eng e).heat = some g ∧ g.hold.isSome = true

/-- TAKEOVER makes the standby the stroke, and does nothing elsewhere (R258, R259). -/
def ezCtrlTakeover : Prop := ∀ s, HostUp s → Answers .ezCtrlTakeover s fun t =>
  if s.ez.standby = true then TakesStroke s t else t = s

/-- Enumeration settles the ID, the depth, the members, the tree and the ports of each device that it reaches, while no engine is
RUNNING or HELD; then the stroke is 0 with no standby. The root names the frame count and starts the first survey; a device
alone is done. A device that is not reached stays as it was (R246 to R248, R252, R257, R265).
The model's choice, no rule of the spec, where the spec leaves open: log entry 130. -/
def enumerationDone : Prop := ∀ me (cables : List Cable) s, Powered s →
  let nodes := enumerate cables
  Answers (.enumerationDone me cables) s fun t =>
    match nodes.find? fun n => n.dev = me with
    | none => t = s
    | some m =>
      if s.anyEngine Engine.active = true then t = s
      else
        t.ez.id = BitVec.ofNat 6 m.id ∧ t.ez.valid = true ∧ t.ez.root = decide (m.id = 0) ∧
        t.ez.depth = BitVec.ofNat 2 m.depth ∧ t.ez.members = maskOf 64 (nodes.map (·.id)) ∧ t.ez.tree = treeOf nodes ∧
        t.ez.strokeReg = 0 ∧ t.ez.standby = false ∧ t.ez.stroke = decide (t.ez.id = 0) ∧
        t.ez.enumDone = decide (nodes.length ≤ 1) ∧ t.ez.enumBusy = decide (1 < nodes.length) ∧
        (1 < nodes.length → m.id = 0 → t.ez.surveyBusy = true ∧ t.ez.frameLoad.isSome = true) ∧
        ∀ p < 5,
          let r := (s.port p).settle cables nodes m p
          (t.port p).role = r.role ∧ (t.port p).st = r.st ∧ (t.port p).farId = r.farId ∧ (t.port p).route = r.route

/-- A survey is over: its target is x, or the old one stands, REF is the mean of the last arrivals, and enumeration is done (R253,
R254, R256). -/
def Surveyed (s t : State) (x : Option Int) : Prop :=
  t.ez.target = x.getD s.ez.target ∧ t.ez.ref = BitVec.ofInt 16 (catchMean s.ez.phases) ∧
  t.ez.surveyBusy = (s.ez.surveyAgain && s.isTop) ∧ t.ez.enumDone = (s.ez.enumDone || s.ez.enumBusy) ∧
  t.ez.applied = (if s.anyEngine Engine.active then s.ez.applied else t.ez.target)

/-- A survey ends at the root once every link has been heard of, or after 5 ms, and on another member with the target the root sent,
or with none after 5 ms. Until then, and without a survey, nothing changes (R253 to R256).
The model's choice, no rule of the spec, where the spec leaves open: log entry 129. -/
def skewSurveyDone : Prop := ∀ s, Powered s →
  let late : Prop := s.ez.surveyAt + 8000000 ≤ s.now
  Answers .skewSurveyDone s fun t =>
    if s.ez.surveyBusy = false then t = s
    else if s.isTop = true then
      if s.surveyHeard = true ∨ late then Surveyed s t (s.targetOf s.ez.id.toNat (strokeId s.ez.strokeReg)) else t = s
    else
      match s.ez.svResult with
      | some x => Surveyed s t x
      | none => if late then Surveyed s t none else t = s

/-- The applied offset moves by 1 fu per 64 ticks toward its target while a heat is RUNNING or HELD (R254). -/
def skewSlewStep : Prop := ∀ s, Powered s → Answers .skewSlewStep s fun t =>
  if s.ez.applied ≠ s.ez.target ∧ s.anyEngine Engine.active = true ∧ s.ez.slewAt + 64 ≤ s.now then
    t.ez = { s.ez with
      slewAt := s.now
      slews := ((s.now * 512, s.ez.applied) :: s.ez.slews).take histKeep
      applied := if s.ez.applied < s.ez.target then s.ez.applied + 1 else s.ez.applied - 1 }
  else t = s

/-- EZ_ROLE takes the write; while no request is pending its GO sends one, or ends at once: ROLE_CONFLICT for the same request
within 10 us of its conflict, and DENIED where the peer is no member, neither is the stroke, or the port is no CROSS link that is UP
(R250).
The model's choice, no rule of the spec, where the spec leaves open: log entries 132 and 144. -/
def ezRoleGo : Prop := ∀ (v : Word32) s, HostUp s →
  let f (stroke : Bool) (peer : Nat) : BitVec 64 :=
    evtFlit 7 s.ez.id (tsOf s.rtick) (rolePayload stroke peer 0)
  let peer := rolePeer v
  let sent (t : State) : Prop := t.ez.roleBusy = true ∧ t.ez.roleAt = s.now ∧ t.ez.roleReq = v &&& 0x3F0F
  Answers (.ezRoleGo v) s fun t =>
    t.ez.role = v &&& 0x3F0F ∧
    if s.ez.roleBusy = true then t = { s with ez := { s.ez with role := v &&& 0x3F0F } }
    else if ∃ x, s.ez.roleConflict = some x ∧ s.now < x + 16000 ∧ sameRole (v &&& 0x3F0F) s.ez.roleLost = true then
      t.ez.roleBusy = false ∧ t.ez.roleResult = stRoleConflict
    else if bit v 3 = true then
      if bit s.ez.members peer = true ∧ s.strokeAmong peer = true then
        sent t ∧ ∀ q ∈ s.portsOf (if s.isTop then 2 else 1), Out.event q (f true peer) ∈ t.out
      else t.ez.roleBusy = false ∧ t.ez.roleResult = stDenied
    else
      match s.crossPeer v with
      | some i => sent t ∧ Out.event (rolePort v) (f false i) ∈ t.out
      | none => t.ez.roleBusy = false ∧ t.ez.roleResult = stDenied

/-- A role request without an answer for 100 us ends TIMEOUT (R250). -/
def roleRequestTimeout : Prop := ∀ s, Powered s → Answers .roleRequestTimeout s fun t =>
  if s.ez.roleBusy = true ∧ s.ez.roleAt + 160000 ≤ s.now then
    t.ez = { s.ez with roleBusy := false, roleResult := stTimeout }
  else t = s

/-- At tick 0 of a frame the TIM units that start on FRAME start there, and the stroke drives CATCH_OUT high for 16 ticks; a frame
count that has been named is loaded at its boundary (R172, R251, R252, R259). -/
def frameStart : Prop := ∀ s, Powered s →
  let s0 := s.loadFrame
  let k := s0.rtick % 262144
  let b := s0.rtick - k
  Answers .frameStart s fun t =>
    (∀ f x, s.ez.frameLoad = some (f, x) → x ≤ s.now → t.ez.lead = (f : Int) * 262144 - x ∧ t.ez.frameLoad = none) ∧
    if 16 ≤ k then t = s0
    else
      (if s0.mayCatch b = true then
        t.ez.catchOut = true ∧ t.ez.catchFall = b + 16 ∧ t.ez.newStrokeFrom = none ∧ t.catchLevel = true
      else t.ez = s0.ez) ∧
      ∀ u < 32, (s.tim u).startSrc = 26 → (s.tim u).stopSrc ≠ 26 → (s.tim u).awaitsStart b = true →
        s.timGateOn u b = true → (t.tim u).st = .started ∧ (t.tim u).startT = b * 131072

/-- The first pulse of CATCH_IN in BOOT sets the raw grid. A later one is noted: within 4 ticks of tick 0 it ends a run of misses,
and further off it counts as one; eight in a row further from REF than the tolerance set CATCH_DRIFT (R252, R256, R260).
The model's choice, no rule of the spec, where the spec leaves open: log entries 77 and 131. -/
def catchInPulse : Prop := ∀ (phase : Int) s, Powered s →
  let n := if s.ez.tol.toNat < (phase - s.ez.ref.toInt).natAbs then s.ez.driftRun + 1 else 0
  Answers (.catchInPulse phase) s fun t =>
    if s.dev.base = .boot ∧ s.ez.grid = false then t = { s with ez := { s.ez with grid := true, lead := -(s.now : Int) } }
    else
      t.ez.phase = BitVec.ofInt 16 phase ∧ t.ez.phases = phase :: s.ez.phases.take 15 ∧
      t.ez.driftRun = (if n = 8 then 0 else n) ∧ t.ez.catchDrift = (s.ez.catchDrift || decide (n = 8)) ∧
      if 2048 < phase.natAbs then t.ez.misses = satInc s.ez.misses ∧ t.ez.missRun = s.ez.missRun + 1
      else t.ez.misses = s.ez.misses ∧ t.ez.missRun = 0 ∧ t.ez.gotCatch = (s.ez.gotCatch || s.fromNewStroke)

/-- A missing pulse is counted; the first of a run is an event of source 56, and the second takes the stroke's role to the standby
(R256, R258, R298). -/
def catchMiss : Prop := ∀ s, Powered s → Answers .catchMiss s fun t =>
  t.ez.misses = satInc s.ez.misses ∧ t.ez.missRun = s.ez.missRun + 1 ∧ t.ez.driftRun = 0 ∧
  (s.ez.missRun = 0 → Reported s t 56 1) ∧
  if s.ez.standby = true ∧ 2 ≤ s.ez.missRun + 1 then TakesStroke s t
  else t.ez.stroke = s.ez.stroke ∧ t.ez.strokeReg = s.ez.strokeReg

/-- At a frame boundary, once per millisecond, the stroke sends a generation and its commit to the standby (R257).
The model's choice, no rule of the spec, where the spec leaves open: log entries 43 and 127. -/
def strokeGeneration : Prop := ∀ s, Powered s →
  let v := s.ez.strokeReg
  let n := s.ez.genSent + 1
  let f := BitVec.ofNat 48 (s.rtick / 262144)
  let co := s.mayCatch s.rtick
  Answers .strokeGeneration s fun t =>
    if s.ez.stroke = true ∧ standbyEn v = true ∧ s.rtick % 262144 < 16 ∧
        (s.ez.genSent = 0 ∨ s.ez.genAt + 6 * 262144 ≤ s.now) then
      let u := (s.sendTo (standbyId v) (.generation f co v)).sendTo (standbyId v) (.genCommit n (genCrc f co v n))
      t = { u with ez := { s.ez with genSent := n, genAt := s.now } }
    else t = s

/-- A standby that hears no generation for 2.5 ms becomes the stroke (R258). -/
def generationTimeout : Prop := ∀ s, Powered s → Answers .generationTimeout s fun t =>
  if s.ez.standby = true ∧ s.ez.genAt + 4000000 ≤ s.now then TakesStroke s t else t = s

/-- At the top of the tree EZ_STROKE takes a value whose IDs are members: one that names the present stroke gives it that standby,
one that names another makes that the stroke, with no standby. Any other write is refused (R257, R259, R265).
The model's choice, no rule of the spec, where the spec leaves open: log entry 43. -/
def ezStrokeWrite : Prop := ∀ (v : Word32) s, HostUp s →
  let w := v &&& 0xBF3F
  Answers (.ezStrokeWrite v) s fun t =>
    if s.isTop = false ∨ s.strokeBad w = true then t = { s with ez := { s.ez with refused := true } }
    else if strokeId w = strokeId s.ez.strokeReg then
      t.ez.strokeReg = w ∧ t.ez.stroke = decide (strokeId w = s.ez.id.toNat) ∧
      t.ez.standby = (standbyEn w && decide (standbyId w = s.ez.id.toNat))
    else if strokeId w = s.ez.id.toNat then TakesStroke s t
    else
      t.ez.strokeReg = BitVec.ofNat 32 (strokeId w) ∧ t.ez.stroke = false ∧ t.ez.standby = false ∧
      t.ez.newStrokeFrom = some s.rtick

/-- RAISE latches Easy-All on this device with its own action, and tells every link of the tree (R261). -/
def easyallRaise : Prop := ∀ s, HostUp s → Answers .easyallRaise s fun t =>
  Latched s t (bit s.ea.cfg 0) 1 s.ez.id.toNat 0 s.rtick ∧ Floods s t 1

/-- CLEAR ends the latched state at the top of the tree, tells every link, and EASYALL_N is ignored for 1 us; elsewhere it does
nothing (R262).
The model's choice, no rule of the spec, where the spec leaves open: log entry 44. -/
def easyallClear : Prop := ∀ s, HostUp s → Answers .easyallClear s fun t =>
  if s.isTop = true then
    t.ea = { s.ea with latched := false, safe := false, ignoreTo := some (s.now + 1600) } ∧
    ∀ q ∈ s.portsOf 1 ++ s.portsOf 2,
      Out.event q (evtFlit 0 s.ez.id (tsOf s.rtick) (eaPayload false eaClearKind 0)) ∈ t.out
  else t = s

/-- A low ball raises Easy-All where it is neither latched nor ignored (R261, R262). -/
def easyallNLow : Prop := ∀ s, Powered s → Answers .easyallNLow s fun t =>
  if s.ea.latched = true ∨ s.ea.ignoreTo.isSome = true then t = s
  else Latched s t (bit s.ea.cfg 0) 3 s.ez.id.toNat 0 s.rtick ∧ Floods s t 3

/-- After the microsecond a ball that is still low raises Easy-All again, with the holds or the SAFE entry and the flood of a raise;
before its end nothing changes (R261, R262). -/
def easyallIgnoreEnd : Prop := ∀ low s, Powered s → Answers (.easyallIgnoreEnd low) s fun t =>
  match s.ea.ignoreTo with
  | none => t = s
  | some x =>
    let s1 := { s with ea := { s.ea with ignoreTo := none } }
    if s.now < x then t = s
    else if low = true then Latched s1 t (bit s.ea.cfg 0) 3 s.ez.id.toNat 0 s.rtick ∧ Floods s t 3
    else t = s1

end Sys2Proof.Machine.Completes

namespace Sys2Proof.Machine.Completes

/-! The host interface and the Umpire (R266 to R311). -/

/-- CREW_MAP gives the engine its crew and coupling: a joining channel takes the timing sets of the crew's lowest channel, and keeps
its own count of writes. It is refused in the order of R279, and waits while a joining channel is measured in place (R13, R58, R227,
R232, R276).
The model's choice, no rule of the spec, where the spec leaves open: log entry 116. -/
def crewMap : Prop := ∀ h engine coupling mask s, Serves s (.crewMap h engine coupling mask) h (engineRec engine) →
  let e := engine.toNat
  let r := s.eng e
  Answers (.crewMap h engine coupling mask) s fun t =>
    if 128 ≤ e then Refuses s t h stBadCommand
    else
      match s.crewRefusal (ctxOfQueue h.sq) e coupling mask with
      | some (st, d) => Result t h st d 0 0 ∧ KeepsAllBut [.hostCmds] s t
      | none =>
        if s.mapBlocked e mask = true then
          Waits t h ∧ t.cal.mapWaits = s.cal.mapWaits ++ [⟨h.sq, h.cid, e, coupling, mask⟩] ∧
          KeepsAllBut [.hostCmds, .calWaits] s t
        else
          Decided t h stOk ∧
          t.eng e = { r with crew := mask, coupled := bit coupling 7 && decide (mask ≠ 0), coupling := fld coupling 0 7 } ∧
          (r.crew = 0 → t.tsets = s.tsets) ∧
          (r.crew ≠ 0 → ∀ c < 256, ∀ i < 256, t.tset (256 * c + i) =
            if bit mask c = true ∧ bit r.crew c = false then
              { s.tset (256 * r.lowest + i) with wseq := (s.tset (256 * c + i)).wseq }
            else s.tset (256 * c + i))

/-- CLAIM takes every resource of the range, or none: the first that another holds is named with its holder. A range past the last
index, or with no resource, is BAD_COMMAND (R276, R291). -/
def claim : Prop := ∀ h kind first count s, Serves s (.claim h kind first count) h (claimRec kind first count) →
  let c := ctxOfQueue h.sq
  let k := kind.toNat
  let l := claimRange k first.toNat count.toNat
  Answers (.claim h kind first count) s fun t =>
    if claimWf kind count = false ∨ kindCount k < first.toNat + count.toNat then Refuses s t h stBadCommand
    else
      match l.find? fun x => s.claim x ≠ 31 && s.claim x ≠ c with
      | some x =>
        Result t h stClaimed (placeN 32 0 (x - 256 * k) ||| placeN 32 16 (s.claim x)) 0 0 ∧ KeepsAllBut [.hostCmds] s t
      | none =>
        Decided t h stOk ∧ (∀ x ∈ l, t.claim x = c) ∧ (∀ x, x ∉ l → t.claim x = s.claim x) ∧
        KeepsAllBut [.hostCmds, .claims] s t

/-- RELEASE frees a range that the context holds whole: a TIM unit returns to IDLE, an acquisition unit in PRE or WAIT_ADC too, and
a group is disabled. Where one is not the context's it is NOT_OWNER, and frees nothing (R175, R197, R201, R276, R291). -/
def release : Prop := ∀ h kind first count s, Serves s (.release h kind first count) h anyRec →
  let k := kind.toNat
  let l := claimRange k first.toNat count.toNat
  Answers (.release h kind first count) s fun t =>
    if claimWf kind count = false ∨ kindCount k < first.toNat + count.toNat then Refuses s t h stBadCommand
    else if ∃ x ∈ l, s.claim x ≠ ctxOfQueue h.sq then Refuses s t h stNotOwner
    else
      Decided t h stOk ∧ (∀ x ∈ l, t.claim x = 31) ∧ (∀ x, x ∉ l → t.claim x = s.claim x) ∧
      ∀ i, first.toNat ≤ i → i < first.toNat + count.toNat →
        (k = 2 → (t.tim i).st = .idle) ∧
        (k = 3 → t.acq i = if (s.acq i).st = .pre ∨ (s.acq i).st = .waitAdc then { s.acq i with st := .idle } else s.acq i) ∧
        (k = 4 → t.group i = { (s.group i).disable with cfg := setBit (s.group i).cfg 0 false })

/-- LOCK is refused where a lock of the same or a higher rank is held or awaited. A free lock is granted at once where no LOCK of
the context waits and no waiter of the lock has its turn: the completion copies SUSPECT. Else it waits TIMEOUT microseconds, or with
TIMEOUT 0 it completes TIMEOUT (R276, R292, R293, R295). -/
def lock : Prop := ∀ h (n : Byte) (timeout : Word32) s, Serves s (.lock h n timeout) h anyRec →
  let c := ctxOfQueue h.sq
  let l := s.lock n.toNat
  let susp := l.suspect || decide (l.owner ≠ 31)
  let first : Prop := ∀ m ∈ s.lockKeys, ∀ x ∈ (s.lock m).waiters, x.ctx ≠ c
  Answers (.lock h n timeout) s fun t =>
    if 64 ≤ n.toNat ∨ 1000000 < timeout.toNat ∨ h.target ≠ 0 then Refuses s t h stBadCommand
    else if s.lockOrder c n.toNat = true then Refuses s t h stLockOrder
    else if s.lockFree n.toNat = true ∧ first ∧ l.waiters.find? s.lockTurn = none then
      t.lock n.toNat = { l with owner := c, suspect := susp, epoch := (s.ctx c).epoch } ∧
      ∃ d ∈ t.host.inflight, d.names h.sq h.cid = true ∧ d.stage = .committed ∧ d.status = stOk ∧ d.suspect = susp
    else
      s.lockFree n.toNat = false ∨ first ∨ (∃ m ∈ s.lockKeys, ∃ x ∈ (s.lock m).waiters, x.ctx = c ∧ x.seq < s.host.fetchSeq) →
      if timeout = 0 then Refuses s t h stTimeout
      else
        Waits t h ∧ ∃ w ∈ (t.lock n.toNat).waiters, w.sq = h.sq ∧ w.cid = h.cid ∧ w.ctx = c ∧
          w.until_ = s.now + timeout.toNat * 1600

/-- A free lock goes to the first waiter whose turn it is, with its owner's epoch; one whose owner's epoch has moved on is SUSPECT
(R293, R295).
The model's choice, no rule of the spec, where the spec leaves open: log entry 78. -/
def lockGrant : Prop := ∀ (n : Fin 64) s, Powered s →
  let l := s.lock n.val
  let susp := l.suspect || decide (l.owner ≠ 31)
  Answers (.lockGrant n) s fun t =>
    if s.lockFree n.val = false then t = s
    else
      match l.waiters.find? s.lockTurn with
      | none => t = s
      | some w =>
        t.lock n.val = { l with owner := w.ctx, suspect := susp, epoch := (s.ctx w.ctx).epoch,
                                waiters := l.waiters.filter fun x => x ≠ w } ∧
        ∀ c, s.cmd? w.sq w.cid = some c →
          ∃ d ∈ t.host.inflight, d.names w.sq w.cid = true ∧ d.stage = .committed ∧ d.status = stOk ∧ d.suspect = susp

/-- A LOCK that has waited its TIMEOUT waits no longer (R293). -/
def lockTimeout : Prop := ∀ sq cid s, Powered s → Answers (.lockTimeout sq cid) s fun t =>
  match s.lockWait sq cid with
  | none => t = s
  | some w =>
    if s.now < w.until_ then t = s
    else
      t.lockWait sq cid = none ∧ Ends s t sq cid stTimeout 0 0 ∧
      ∀ n, t.lock n = { s.lock n with waiters := (s.lock n).waiters.filter fun x => !(x.sq = sq && x.cid = cid) }

/-- UNLOCK frees a lock its context holds, and is NOT_OWNER for any other; only VALIDATE = 1 clears SUSPECT (R276, R292, R294). -/
def unlock : Prop := ∀ h (n validate : Byte) s, Serves s (.unlock h n validate) h anyRec →
  let l := s.lock n.toNat
  Answers (.unlock h n validate) s fun t =>
    if 64 ≤ n.toNat ∨ 2 ≤ validate.toNat ∨ h.target ≠ 0 then Refuses s t h stBadCommand
    else if s.lockFree n.toNat = true ∨ l.owner ≠ ctxOfQueue h.sq then Refuses s t h stNotOwner
    else
      Decided t h stOk ∧ t.lock n.toNat = { l with owner := 31, suspect := l.suspect && decide (validate ≠ 1) } ∧
      KeepsAllBut [.hostCmds, .locks] s t

/-- A BARRIER completes at once where no earlier command of its context is in flight, and else waits for those there are (R280). -/
def barrier : Prop := ∀ h s, Serves s (.barrier h) h anyRec →
  let n := match s.cmd? h.sq h.cid with
    | some c => c.seq
    | none => s.host.fetchSeq
  let l := (s.host.inflight.filter fun d => ctxOfQueue d.sq = ctxOfQueue h.sq && decide (d.seq < n)).map (·.seq)
  Answers (.barrier h) s fun t =>
    KeepsAllBut [.hostCmds] s t ∧
    if h.target ≠ 0 then Decided t h stBadCommand
    else if l = [] then Decided t h stOk
    else ∃ d ∈ t.host.inflight, d.names h.sq h.cid = true ∧ d.stage = .started ∧ d.bar = l

/-- What an ABORT does to the HEAT_START of a queue and CID that engine e runs or holds in its launch queue (R103, R105, R148,
R289). -/
def AbortsHeat (s t : State) (h : Hdr) (q : QueueId) (cid : BitVec 16) (e : Nat) : Prop :=
  let r := s.eng e
  match r.heat.filter fun g => g.sq = q && g.cid = cid with
  | none =>
    Decided t h stOk ∧ (∃ d ∈ t.host.inflight, d.names q cid = true ∧ d.stage = .committed ∧ d.status = stAborted) ∧
    t.eng e = { r with launchQ := r.launchQ.filter fun x => !(x.sq = q && x.cid = cid) }
  | some g =>
    match g.ended with
    | some x =>
      if x.status = stOk then
        Decided t h stOk ∧ t.eng e = { r with heat := some { g with ended := some ⟨stAborted, 0, 0, 0⟩ } }
      else Refuses s t h stTargetDone
    | none =>
      if g.awaits = true then Decided t h stOk ∧ (t.eng e).heat = none
      else if r.st = .held then
        Decided t h stOk ∧ (t.eng e).st = .halted ∧
        ∃ x, (t.eng e).heat = some x ∧ x.phase = .ended ∧ x.ended = some ⟨stAborted, 0, 0, 0⟩
      else if g.abort.isSome = true then Refuses s t h stTargetDone
      else Decided t h stOk ∧ t.eng e = { r with heat := some { g with abort := some (g.playedAt s.rtick) } }

/-- ABORT of a command of another context is NOT_OWNER. One that is past its commit point, an ABORT, or one that has taken effect is
TARGET_DONE; a transfer stops part-way, a command on another member is decided there, a heat ends as above, and any other completes
ABORTED (R276, R285, R289).
The model's choice, no rule of the spec, where the spec leaves open: log entries 46 and 122. -/
def abort : Prop := ∀ h tcid (tsq : Byte) s, Serves s (.abort h tcid tsq) h anyRec → Unnamed s h 0x04 →
  let q : QueueId := ⟨tsq.toNat, tsq.isLt⟩
  let aborted (t : State) : Prop :=
    ∃ d ∈ t.host.inflight, d.names q tcid = true ∧ d.stage = .committed ∧ d.status = stAborted
  Answers (.abort h tcid tsq) s fun t =>
    if h.target ≠ 0 then Refuses s t h stBadCommand
    else if tsq.toNat / 16 ≠ ctxOfQueue h.sq then Refuses s t h stNotOwner
    else if q = h.sq ∧ tcid = h.cid then Refuses s t h stTargetDone
    else
      match s.cmd? q tcid, s.xferOf q tcid with
      | none, none => Refuses s t h stTargetDone
      | none, some _ =>
        Decided t h stOk ∧
        ∃ d ∈ t.host.inflight, d.names q tcid = true ∧ d.stage = .committed ∧ d.status = stAborted ∧ d.part = true ∧ d.xfer = none
      | some c, _ =>
        if c.stage = .remote then
          ∃ d ∈ t.host.inflight, d.names h.sq h.cid = true ∧ d.stage = .remote ∧ d.source = c.source
        else if c.opc = 0x04 ∨ c.accepted s.dev.waits = true then Refuses s t h stTargetDone
        else
          match (if c.opc = 0x01 then c.engine else none) with
          | some e => AbortsHeat s t h q tcid e
          | none =>
            Decided t h stOk ∧ aborted t ∧ t.lockWait q tcid = none ∧
            t.cal.mapWaits = (s.cal.mapWaits.filter fun w => !(w.sq = q && w.cid = tcid)) ∧
            t.cal.reqs = s.cal.reqs.filter fun w => !(w.sq = q && w.cid = tcid)

/-- MODE_SET moves between the modes as R335 lets it, and completes NOT_READY where it does not. HOLD and DOCK wait for their modes
(R337), SURVEY for its run, STOP starts Stop once it has completed, SAFE acts in every mode but BOOT and SAFE (R276, R305, R335 to
R339).
The model's choice, no rule of the spec, where the spec leaves open: log entries 50 and 88. -/
def modeSet : Prop := ∀ h (mode : Byte) s, Serves s (.modeSet h mode) h (fun r => bit r.perms 6) → Unnamed s h 0x39 →
  let m := s.mode
  let waits (t : State) (k : Nat) (l : List Nat) : Prop := Waits t h ∧ ⟨h.sq, h.cid, k, l⟩ ∈ t.dev.waits
  Answers (.modeSet h mode) s fun t =>
    if 8 ≤ mode.toNat ∨ mode = 1 ∨ mode = 3 then Refuses s t h stBadCommand
    else if mode = 7 then
      if m ∈ [.dock, .run, .hold, .survey, .diag] then Decided t h stOk ∧ t.mode = .safe else Refuses s t h stNotReady
    else if m = .survey then Refuses s t h stNotReady
    else if mode = 0 then
      if (m = .dock ∨ m = .diag ∨ m = .safe) ∧ ¬(m = .safe ∧ s.safeSource = true) ∧ (s.begin h 0x39).devInflight ≤ 1 then
        Decided t h stOk ∧ t.power.stopReq = some (h.sq, h.cid) ∧ t.mode = m ∧
        (s.cal.unsaved = true → t.cal.flashSlots = s.cal.slots ∧ t.cal.flashTemps = s.cal.temps ∧ t.cal.savedAt = some s.now)
      else Refuses s t h stNotReady
    else if mode = 2 then
      if m = .hold ∨ m = .run then
        if s.dev.holdReq = false then Refuses s t h stNotReady
        else t.dev.holdReq = false ∧ if t.mode = .hold then waits t 2 [] else Decided t h stOk
      else if (m = .diag ∧ s.anyEngine Engine.active = false) ∨ (m = .safe ∧ s.mayLeaveSafe = true) then
        Decided t h stOk ∧ t.dev.base = .dock ∧ (m = .safe → t.dev.holdReq = false)
      else Refuses s t h stNotReady
    else if mode = 4 then
      if m = .dock ∨ m = .run then
        t.dev.holdReq = true ∧
        (∀ e g, (s.eng e).st = .running → (s.eng e).heat = some g →
          (t.eng e).heat = some { g with hold := match g.hold with
            | some q => if g.playedAt s.rtick < q.at_ then some ⟨g.playedAt s.rtick, 2⟩ else some q
            | none => some ⟨g.playedAt s.rtick, 2⟩ }) ∧
        if s.anyEngine (fun r => r.st = .running) = true then waits t 4 (s.enginesIn fun r => r.st = .running) else Decided t h stOk ∧ t.mode = .hold
      else Refuses s t h stNotReady
    else if m = .dock then
      if mode = 5 then
        waits t 5 [] ∧ t.mode = .survey ∧ t.cal.surveyBusy = true ∧
        ∀ k < 16, (t.calLane k).svTodo = some (if s.refSpan then [] else [16, 17, 18] ++ List.range 16)
      else Decided t h stOk ∧ t.mode = .diag
    else Refuses s t h stNotReady

/-- The entry at the head of an SQ whose turn it is joins the commands in flight, and SQ_HEAD moves on; one for a target with 4,096
commands in flight is noted, and its SQ skipped. A STOPPED SQ's is CANCELLED, an entry that is malformed or whose CID is in flight
is refused, one with FENCE waits, and any other starts. Else nothing is fetched (R272, R273, R276, R288).
The model's choice, no rule of the spec, where the spec leaves open: log entries 53 and 54. -/
def commandFetch : Prop := ∀ (q : QueueId) (entry : BitVec 512) s, Powered s →
  let r := s.qp q.val
  let head := queueNext r.sqLog r.sqHead
  Answers (.commandFetch q entry) s fun t =>
    if s.fetchable q = false ∨ s.fetchTurn q = false then t = s
    else if 4096 ≤ s.targetInflight (fld entry 16 6) then
      t.qp q.val = { r with fullFor := some (fld entry 16 6) } ∧ t.host.lastSq = q.val ∧ t.host.inflight = s.host.inflight
    else
      (t.qp q.val).sqHead = head ∧ t.host.lastSq = q.val ∧ (t.qp q.val).stopped = (r.stopped && decide (r.cancelTo ≠ some head)) ∧
      (t.qp q.val).cancelled = (if r.stopped then satInc r.cancelled else r.cancelled) ∧ (t.qp q.val).fullFor = none ∧
      ∃ c ∈ t.host.inflight, c.names q (fld entry 32 16) = true ∧ c.seq = s.host.fetchSeq ∧ c.opc = fld entry 0 8 ∧
        c.target = fld entry 16 6 ∧ c.raw = some entry ∧
        match (if r.stopped then some stCancelled else s.fetchRefusal q entry) with
        | some st => c.stage = .committed ∧ c.status = st
        | none => c.stage = if bit entry 8 then .fetched else .started

/-- A fenced command starts once every earlier one of its SQ has been written, and is cancelled where one failed (R283,
R288). -/
def commandStart : Prop := ∀ (q : QueueId) cid s, Powered s → Answers (.commandStart q cid) s fun t =>
  match s.cmd? q cid with
  | none => t = s
  | some c =>
    if c.stage ≠ .fetched ∨ ∃ d ∈ s.host.inflight, d.sq = q ∧ d.seq < c.seq then t = s
    else if (s.qp q.val).failed = true then
      Ends s t q cid stCancelled 0 0 ∧ t.qp q.val =
        { s.qp q.val with stopped := true, cancelTo := none, cancelled := satInc (s.qp q.val).cancelled }
    else ∃ d ∈ t.host.inflight, d.names q cid = true ∧ d.seq = c.seq ∧ d.stage = .started

/-- The completion of a decided command is written on the root in its CQ's order, or sent towards it in the order of its group: the
command is in flight no longer, a BARRIER that waited for it alone completes, and a context reset that waited for it ends (R280 to
R287, R339). A transfer whose data are all visible can then be stopped no more. -/
def commandCommit : Prop := ∀ (q : QueueId) cid s, Powered s → Answers (.commandCommit q cid) s fun t =>
  match s.decided? q cid with
  | none => t = s
  | some c =>
    let u := s.closeXfer c
    match u.host.inflight.find? fun d => d.seq = c.seq with
    | none => t = u
    | some d =>
      let r := s.qp d.sq.val
      if (if s.isTop then d.csn = some (s.qp q.val).csn else u.orderTurn d = true) then
        (∀ x ∈ t.host.inflight, x.seq ≠ d.seq) ∧
        (s.isTop = true → Out.completion d.sq.val r.cqTail.toNat (cqEntry d r) ∈ t.out ∧
          (t.qp d.sq.val).csn = r.csn + 1 ∧ (t.qp d.sq.val).cqTail = queueNext r.cqLog r.cqTail ∧
          (t.qp d.sq.val).failed = (r.failed || d.failure)) ∧
        (s.isTop = false → (s.ctx (ctxOfQueue d.sq)).resetting = false → t.ports =
          (u.sendTo 0 (.completion d.sq d.cid d.status d.detail d.r0 d.r1 d.part d.fcsat)).ports) ∧
        (∀ b ∈ u.host.inflight, b.open = true → b.seq ≠ d.seq → b.bar = [d.seq] →
          ∃ x ∈ t.host.inflight, x.seq = b.seq ∧ x.stage = .committed ∧ x.status = stOk) ∧
        ((s.ctx (ctxOfQueue d.sq)).resetting = true →
          (∀ x ∈ u.host.inflight, ctxOfQueue x.sq = ctxOfQueue d.sq → x.seq = d.seq) →
          (t.ctx (ctxOfQueue d.sq)).resetting = false ∧
          (t.ctx (ctxOfQueue d.sq)).epoch = (s.ctx (ctxOfQueue d.sq)).epoch + 1) ∧
        (s.power.stopReq = some (d.sq, d.cid) → t.power.stopAt = some (s.now + 1600000) ∧ t.power.stopReq = none) ∧
        (s.power.stopReq ≠ some (d.sq, d.cid) → t.power = s.power)
      else t = u

/-- A queue register write is refused: ERR is set, and source 57 hears of the context and the queue (R272, R298). -/
def QueueRefuses (s t : State) (q : QueueId) : Prop :=
  t.qp q.val = { s.qp q.val with err := true } ∧
  Reported s t 57 (placeN 32 8 (ctxOfQueue q) ||| placeB 32 12 true ||| placeN 32 24 q.val)

/-- Interrupt vector v is sent, or its pending bit set while its entry or the function is masked; none while MSI-X is not enabled
(R266, R267). -/
def Signals (s t : State) (v : Byte) : Prop :=
  s.host.pci.msixEn = true →
    if s.host.pci.msixMask = true ∨ bit (s.msixDword (4 * v.toNat + 3)) 0 = true then bit t.host.msixPend v.toNat = true
    else Out.msix v.toNat ∈ t.out

/-- A doorbell write to an enabled SQ with an index that makes no more entries than the queue holds; any other is refused. It waits
for the aperture writes before it (R269, R272). -/
def hqSqTailWrite : Prop := ∀ (q : QueueId) v s, HostUp s →
  let r := s.qp q.val
  Answers (.hqSqTailWrite q v) s fun t =>
    if s.apOpen = true then t = { s with host := { s.host with ap := s.host.ap ++ [.sqTail q v] } }
    else if r.sqEn = true ∧ fldN v 0 12 < queueSize r.sqLog ∧
        queueDist r.sqLog r.sqTail (fld v 0 12) + queueDist r.sqLog r.sqHead r.sqTail < queueSize r.sqLog then
      t.qp q.val = { r with sqTail := fld v 0 12 } ∧ KeepsAllBut [.queuePairs] s t
    else QueueRefuses s t q

/-- A head write within the entries written moves the CQ's head, and where it leaves entries unread its vector is sent at once or
becomes due with the next entry; any other is refused. It waits for the aperture writes before it (R269, R272, R274). -/
def hqCqHeadWrite : Prop := ∀ (q : QueueId) v s, HostUp s →
  let r := s.qp q.val
  let left := decide (fld v 0 12 ≠ r.cqTail) && r.irqEn
  Answers (.hqCqHeadWrite q v) s fun t =>
    if s.apOpen = true then t = { s with host := { s.host with ap := s.host.ap ++ [.cqHead q v] } }
    else if r.cqEn = true ∧ fldN v 0 12 < queueSize r.cqLog ∧
        queueDist r.cqLog r.cqHead (fld v 0 12) ≤ queueDist r.cqLog r.cqHead r.cqTail then
      t.qp q.val = { r with cqHead := fld v 0 12, irqDue := !left } ∧
      if left = true then Signals s t r.vector else KeepsAllBut [.queuePairs] s t
    else QueueRefuses s t q

/-- HQ_SQ_CFG is ignored while the SQ is enabled, and where it would enable one whose pair the entry list does not grant. A size out
of range, or EN with the CQ disabled, is refused. EN starts the SQ empty and not STOPPED (R271, R272, R288, R297).
The model's choice, no rule of the spec, where the spec leaves open: log entries 20 and 83. -/
def hqSqCfgWrite : Prop := ∀ (q : QueueId) v s, HostUp s →
  let r := s.qp q.val
  Answers (.hqSqCfgWrite q v) s fun t =>
    if r.sqEn = true ∨ (bit v 8 = true ∧ s.pairGranted q = false) then t = s
    else if fldN v 0 4 < 4 ∨ 12 < fldN v 0 4 ∨ (bit v 8 = true ∧ r.cqEn = false) then QueueRefuses s t q
    else
      KeepsAllBut [.queuePairs] s t ∧
      if bit v 8 = false then t.qp q.val = { r with sqLog := fld v 0 4 }
      else
        (t.qp q.val).sqEn = true ∧ (t.qp q.val).sqLog = fld v 0 4 ∧ (t.qp q.val).sqHead = (t.qp q.val).sqTail ∧
        (t.qp q.val).stopped = false ∧ (t.qp q.val).err = false ∧ (t.qp q.val).cancelled = 0 ∧
        (t.qp q.val).failed = false ∧ (t.qp q.val).sqBase = r.sqBase

/-- HQ_CQ_CFG in the same way: EN starts the CQ empty with phase 1 and CSN 0, its vector due (R271, R272, R274, R281, R297).
The model's choice, no rule of the spec, where the spec leaves open: log entries 20 and 83. -/
def hqCqCfgWrite : Prop := ∀ (q : QueueId) v s, HostUp s →
  let r := s.qp q.val
  Answers (.hqCqCfgWrite q v) s fun t =>
    if r.cqEn = true ∨ (bit v 8 = true ∧ s.pairGranted q = false) then t = s
    else if fldN v 0 4 < 4 ∨ 12 < fldN v 0 4 then QueueRefuses s t q
    else
      KeepsAllBut [.queuePairs] s t ∧ (t.qp q.val).cqLog = fld v 0 4 ∧ (t.qp q.val).irqEn = bit v 9 ∧
      (t.qp q.val).vector = fld v 16 8 ∧ (t.qp q.val).cqBase = r.cqBase ∧
      if bit v 8 = false then (t.qp q.val).cqEn = false
      else
        (t.qp q.val).cqEn = true ∧ (t.qp q.val).cqHead = (t.qp q.val).cqTail ∧ (t.qp q.val).cqPhase = true ∧
        (t.qp q.val).csn = 0 ∧ (t.qp q.val).irqDue = true

/-- RESTART forgets the failures; a STOPPED SQ cancels what it holds up to its tail, and is STOPPED no longer where that is nothing
(R288). -/
def hqSqRestart : Prop := ∀ (q : QueueId) s, HostUp s →
  let r := s.qp q.val
  let more := r.stopped && decide (r.sqHead ≠ r.sqTail)
  Answers (.hqSqRestart q) s fun t =>
    t.qp q.val = { r with failed := false, stopped := more, cancelTo := if more then some r.sqTail else none } ∧
    KeepsAllBut [.queuePairs] s t

/-- The reset of a context with nothing in flight is done: its epoch advances, its locks are free and SUSPECT, its claims released
and its queues disabled, and every other member is told. Else it goes on, and what was in flight and no heat or transfer, here,
completes ABORTED (R287).
The model's choice, no rule of the spec, where the spec leaves open: log entries 82 and 98. -/
def hqCtxReset : Prop := ∀ (c : Fin 16) s, HostUp s →
  let mine : List Cmd := s.host.inflight.filter fun d => ctxOfQueue d.sq = c.val
  Answers (.hqCtxReset c) s fun t =>
    if (s.ctx c.val).resetting = true then t = s
    else if mine = [] then
      t.ctx c.val = { s.ctx c.val with epoch := (s.ctx c.val).epoch + 1 } ∧
      (∀ i < 16, (t.qp (16 * c.val + i)).sqEn = false ∧ (t.qp (16 * c.val + i)).cqEn = false) ∧
      (∀ x, s.claim x = c.val → t.claim x = 31) ∧
      t.ports = (s.sendAll s.otherIds (.freeClaims (BitVec.ofNat 4 c.val))).ports ∧
      ∀ n, s.lockFree n = false → (s.lock n).owner = c.val →
        t.lock n = { s.lock n with owner := 31, suspect := true }
    else
      (t.ctx c.val).resetting = true ∧ (t.ctx c.val).epoch = (s.ctx c.val).epoch ∧
      ∀ d ∈ mine, d.stage = .fetched ∨ (d.stage = .started ∧ ¬(d.opc = 0x01 ∧ d.engine.isSome = true)) →
        ∃ x ∈ t.host.inflight, x.names d.sq d.cid = true ∧ x.stage = .committed ∧
          x.status = stAborted

/-- The device is in BOOT after a host device reset, with the reset recorded and nothing in flight; the policy that the Boathouse
stored stays (R59, R103, R290, R315, R346, R352). -/
def HostReset (s t : State) : Prop :=
  t.dev.base = .boot ∧ t.dev.ready = false ∧ t.power.booting = true ∧ fldN t.power.cause 0 4 = 4 ∧ t.engines = [] ∧
  t.regions = [] ∧ t.host.inflight = [] ∧ t.host.qps = [] ∧ t.pending = s.pending ∧ t.now = s.now ∧
  (PolicyStored s → t.bh.policy = s.bh.policy)

/-- GBL_CTRL resets the device with its key alone, and not in recovery (R290, R296, R322). -/
def gblCtrlDevReset : Prop := ∀ v s, Powered s → Answers (.gblCtrlDevReset v) s fun t =>
  if bit v 0 = true ∧ fldN v 16 16 = 0x0D4C ∧ s.bh.recovery = false then HostReset s t else t = s

/-- A PCIe reset of any kind resets the root, which holds the link (R266, R290). -/
def hostDeviceReset : Prop := ∀ r s, Powered s → Answers (.hostDeviceReset r) s fun t =>
  if s.isTop = true then HostReset s t else t = s

/-- An aperture takes a selection, but EN for a member outside APERTURE_MEMBERS, or while no context holds APERTURE, and none in
recovery (R269, R296, R322, R324). -/
def gblApSelWrite : Prop := ∀ (n : Fin 8) v s, Powered s → Answers (.gblApSelWrite n v) s fun t =>
  if s.bh.recovery = true ∨ (bit v 8 = true ∧
      ¬(bit s.apertureMembers (fldN v 0 6) = true ∧ ∃ c ∈ List.range 16, bit (s.entryRec c).perms 9 = true)) then t = s
  else t.apSel n.val = v &&& 0x13F ∧ (∀ j, j ≠ n.val → t.apSel j = s.apSel j) ∧ KeepsAllBut [.apSel] s t

/-- The rank of a lock is written while it is free, and not in recovery (R292, R296, R322). -/
def gblLockWrite : Prop := ∀ (n : Fin 64) v s, Powered s → Answers (.gblLockWrite n v) s fun t =>
  if s.lockFree n.val = true ∧ s.bh.recovery = false then
    t.lock n.val = { s.lock n.val with rank := fld v 16 8 } ∧ KeepsAllBut [.locks] s t
  else t = s

/-- The low or high half of a 64-bit register (R7). -/
abbrev half (x : Word64) (hi : Bool) : Word32 := fld x (if hi then 32 else 0) 32

/-- What registers of a device's windows show at offset o, field by field as their register maps have them: the global registers and
locks (R267, R296), queues (R297), engines (R107, R137), lanes and channels (R51, R52, R79). -/
def ShowsCore (s : State) (o : Nat) (w : Word32) : Prop :=
  (o = 8 → s.bh.recovery = false → bit w 0 = s.dev.ready ∧ bit w 1 = s.ez.root) ∧
  (∀ n < 8, o = 0x20 + 4 * n → w = if s.bh.recovery then 0 else s.apSel n) ∧
  (∀ n < 64, o = 0x1000 + 4 * n → s.bh.recovery = false → (s.lock n).owner < 32 →
    fldN w 0 5 = (if s.lockFree n then 31 else (s.lock n).owner) ∧ bit w 5 = (s.lock n).suspect ∧
    fldN w 8 8 = (s.lock n).epoch.toNat ∧ fldN w 16 8 = (s.lock n).rank.toNat) ∧
  (s.dev.ready = true →
    (∀ q < 256, let b := 0x10100 + 0x1000 * (q / 16) + 0x40 * (q % 16)
      let r := s.qp q
      (∀ h : Bool, (o = b + 4 * h.toNat → w = half r.sqBase h) ∧ (o = b + 0x20 + 4 * h.toNat → w = half r.cqBase h)) ∧
      (o = b + 0x08 → fldN w 0 4 = r.sqLog.toNat % 16 ∧ bit w 8 = r.sqEn) ∧ (o = b + 0x0C → w.toNat = r.sqTail.toNat) ∧
      (o = b + 0x10 → w.toNat = r.sqHead.toNat) ∧
      (o = b + 0x14 → bit w 0 = r.stopped ∧ bit w 1 = r.err ∧ fldN w 16 16 = r.cancelled.toNat) ∧
      (o = b + 0x2C → w.toNat = r.cqHead.toNat) ∧ (o = b + 0x30 → fldN w 0 16 = r.cqTail.toNat ∧ bit w 16 = r.cqPhase) ∧
      (o = b + 0x34 → w = r.csn)) ∧
    (∀ e < 128, let b := 0x100000 + 0x1000 * e
      let r := s.eng e
      (o = b + 0x004 → r.regs.stack.length < 32 →
        fldN w 0 3 = r.st.code ∧ bit w 3 = r.tableValid ∧ bit w 4 = (decide (r.st = .held) && r.resumable) ∧
        fldN w 5 3 = r.holdCause.toNat ∧ fldN w 8 5 = r.regs.stack.length ∧ bit w 13 = r.coupled ∧
        fldN w 18 2 = r.captMode.toNat ∧ bit w 20 = r.fcsat ∧ fldN w 24 8 = r.epoch.toNat) ∧
      (o = b + 0x00C → fldN w 0 8 = r.idleTset.toNat ∧ fldN w 16 16 = r.barGroups.toNat) ∧
      (o = b + 0x010 → fldN w 0 12 = r.pc.toNat) ∧
      (o = b + 0x014 → fldN w 0 8 = r.faultCode.toNat ∧ fldN w 16 12 = r.faultAddr.toNat) ∧ (o = b + 0x018 → w = r.matchIter) ∧
      (∀ h : Bool, (o = b + 0x020 + 4 * h.toNat → w = half r.cycles h) ∧
        (o = b + 0x068 + 4 * h.toNat ∨ o = b + 0x070 + 4 * h.toNat → w = half s.flags.dev h)) ∧
      (∀ c < 8, o = b + 0x040 + 4 * c → w = (r.regs.ctr c).value) ∧ (o = b + 0x060 → w = r.regs.eflags) ∧
      (o = b + 0x080 → w = r.tblSel) ∧
      (o = b + 0x0A8 → bit w 0 = r.pdIgnored ∧ bit w 1 = r.pdRefused ∧ fldN w 16 16 = r.tsetMismatch.toNat) ∧
      ∀ c < 16, o = b + 0x300 + 4 * c → w = r.bindAt c) ∧
    ∀ k < 16, let b := 0x200000 + 0x10000 * k
      let l := s.lane k
      (o = b + 0x0014 → bit w 0 = l.lvlBusy ∧ bit w 1 = l.lvlRefused ∧ fldN w 4 4 = l.lvlReason.toNat ∧
        fldN w 8 4 = l.lvlChannel.toNat ∧ fldN w 16 8 = l.lvlSeq.toNat) ∧
      (o = b + 0x0028 → w = l.adcValue) ∧ (o = b + 0x0030 → fldN w 0 16 = l.evtOc.toNat ∧ fldN w 16 16 = l.evtClamp.toNat) ∧
      (o = b + 0x4080 → w = if l.actEn then 1 else 0) ∧
      ∀ j < 16, let c := s.chan (16 * k + j)
        let r := b + 0x100 * j
        let both (x y : BitVec 16) : Prop := fldN w 0 16 = x.toNat ∧ fldN w 16 16 = y.toNat
        (o = r + 0x1000 → both c.staged.path c.active.path) ∧ (o = r + 0x1004 → both c.staged.cfg c.active.cfg) ∧
        (o = r + 0x1010 → both c.staged.vih c.active.vih) ∧ (o = r + 0x1014 → both c.staged.vil c.active.vil) ∧
        (o = r + 0x101C → both c.staged.voh c.active.voh) ∧ (o = r + 0x1020 → both c.staged.vol c.active.vol) ∧
        (o = r + 0x2000 → both c.staged.pmuCtrl c.active.pmuCtrl) ∧ (o = r + 0x2004 → both c.staged.pmuForce c.active.pmuForce))

/-- The same of the units' windows: TIM and reference (R191, R192), triggers (R216), the Log (R217), the Umpire (R311), calibration
(R237), links (R265), the fail capture (R139, R171), rail sense (R351), the Boathouse (R334) and the always-on registers (R352). -/
def ShowsUnits (s : State) (o : Nat) (w : Word32) : Prop :=
  (s.dev.ready = true →
    (∀ u < 32, let b := 0x300000 + 0x100 * u
      let r := s.tim u
      (o = b + 0x04 → w = r.cfg) ∧ (o = b + 0x08 → w = r.sel) ∧ (o = b + 0x0C → w.toNat = r.count.toNat) ∧
      (∀ h : Bool, o = b + 0x10 + 4 * h.toNat → w = half r.timeout h) ∧ (o = b + 0x18 → w = r.ofs) ∧
      (o = b + 0x1C → r.st ≠ .dead → bit w 2 = r.ignored ∧ bit w 3 = r.refused) ∧ (o = b + 0x3C → w = r.lost)) ∧
    (o = 0x308000 → bit w 0 = s.ref.present ∧ bit w 1 = s.ref.relocked ∧ bit w 2 = s.ref.holdover ∧ bit w 3 = s.ref.returning ∧
      bit w 4 = s.ref.latch ∧ fldN w 16 16 = s.ref.lossCount.toNat) ∧
    (o = 0x310000 → bit w 0 = s.trg.ignored ∧ bit w 1 = s.trg.refused ∧ bit w 2 = s.trg.mismatch) ∧ (o = 0x310010 →
        w = s.trg.outCfg) ∧
    (∀ g < 16, let b := 0x311000 + 0x40 * g
      let r := s.group g
      (o = b → w = r.cfg) ∧ (o = b + 0x04 → w = r.win) ∧ (o = b + 0x08 → w = r.tims) ∧ (o = b + 0x34 → w = r.dead) ∧
      (o = b + 0x38 → w = r.fireCnt)) ∧
    (∀ k < 16, let b := 0x312000 + 0x40 * k
      let r := s.acq k
      (o = b → w = r.cfg) ∧ (o = b + 0x04 → w = r.pre) ∧ (o = b + 0x08 → w = r.post) ∧ (o = b + 0x0C → w = r.count) ∧
      (o = b + 0x10 → w = r.region) ∧ (o = b + 0x14 → w = r.level) ∧ (o = b + 0x18 → w = r.hyst) ∧
      (o = b + 0x1C → bit w 0 = decide (r.st ≠ .idle))) ∧
    (o = 0x320000 → w = s.log.cfg) ∧ (o = 0x320004 → w = s.log.swap) ∧ (o = 0x320008 → w = s.log.kindEn) ∧
    (o = 0x320018 → w = s.log.lostPkts) ∧ (o = 0x32001C → w = s.log.lostWords) ∧
    (o = 0x320020 → bit w 0 = s.log.levelIrq ∧ bit w 1 = s.log.lost ∧ bit w 8 = !s.log.fillBank) ∧
    (o = 0x330004 → w = s.ump.irq) ∧ (o = 0x330008 → w = s.ump.forceDetail) ∧
    (∀ n < 96, let b := 0x331000 + 0x20 * n
      let r := s.src n
      (o = b → w = r.cfg) ∧ (o = b + 0x04 → w = r.win) ∧ (o = b + 0x08 → w = r.timer) ∧
      (o = b + 0x0C → fldN w 0 2 = r.st.code ∧ bit w 2 = r.wire ∧ bit w 3 = r.pairN ∧ bit w 4 = r.pairP) ∧
      (o = b + 0x14 → fldN w 0 16 = r.count.toNat ∧ fldN w 16 16 = r.recoveries.toNat) ∧ (o = b + 0x18 → w = r.last)) ∧
    (o = 0x340000 → w = if s.cal.en then 1 else 0) ∧ (o = 0x340004 → w.toNat = s.cal.dt.toNat) ∧
    (o = 0x350000 → fldN w 0 6 = s.ez.id.toNat ∧ bit w 6 = s.ez.valid ∧ bit w 7 = s.ez.root ∧ bit w 14 = s.ez.stroke ∧
      bit w 15 = s.ez.standby) ∧
    (o = 0x350008 → bit w 0 = s.ez.enumDone ∧ bit w 1 = s.ez.surveyBusy ∧ bit w 3 = s.ez.orphan ∧ bit w 8 = s.ez.surveyFail ∧
      bit w 9 = s.ez.lateEvent ∧ bit w 10 = s.ez.refused ∧ bit w 11 = s.ez.apLost ∧ bit w 12 = s.ez.catchDrift) ∧
    (∀ h : Bool, o = 0x350010 + 4 * h.toNat → w = half s.ez.members h) ∧ (o = 0x350024 → w.toNat = s.ez.tol.toNat) ∧
    (o = 0x350028 → w = s.ez.misses) ∧ (o = 0x35002C → w = s.ez.gen) ∧
    (o = 0x350048 → bit w 0 = s.ea.latched ∧ bit w 1 = s.ea.safe) ∧
    (o = 0x360028 → w = s.fc.hbmUe) ∧ (∀ h : Bool, o = 0x360020 + 4 * h.toNat → w = half s.fc.drainBytes h) ∧
    (∀ e < 128, (o = 0x361000 + 0x10 * e → w = (s.eng e).oow) ∧ (o = 0x361004 + 0x10 * e → w = (s.eng e).logcnt)) ∧
    (∀ c < 256, o = 0x364000 + 4 * c → w = (s.chan c).failCnt) ∧
    (o = 0x370004 → w = s.rs.irq) ∧
    ∀ n < 8, (o = 0x370100 + 0x10 * n → w = (s.sn n).thr) ∧ (o = 0x370104 + 0x10 * n → w = (s.sn n).cfg) ∧
      (o = 0x370108 + 0x10 * n → fldN w 0 2 = (s.sn n).hi.code ∧ fldN w 2 2 = (s.sn n).lo.code ∧
        fldN w 4 4 = (s.sn n).evt.toNat ∧ bit w 8 = (s.sn n).rbErr)) ∧
  (o = 0x380004 → w = s.bh.policySeq) ∧
  (o = 0x380010 → fldN w 0 16 = s.bh.mbxType.toNat ∧ fldN w 16 13 = s.bh.mbxLen.toNat ∧ bit w 31 = s.bh.mbxBusy) ∧
  (o = 0x380014 → bit w 0 = s.bh.mbxBusy ∧ fldN w 8 8 = s.bh.mbxStatus.toNat ∧ fldN w 16 13 = s.bh.mbxRspLen.toNat) ∧
  (o = 0x3F0000 → w = s.power.cause) ∧ (o = 0x3F0004 → w = s.power.wakeEn)

/-- A read through an aperture that reaches nothing returns 0. One of the device itself returns its register, as the register maps
have it, an offset inside a dword and a window that waits for READY zero, after the writes through the same aperture that are not
known to have been applied; another member is sent the read and answers it later (R26, R248,
R269). -/
def apertureRead : Prop := ∀ (n : Fin 8) (offset : BitVec 22) s, Powered s → Answers (.apertureRead n offset) s fun t =>
  match s.apMember n.val with
  | none => t.out = .readData [0] :: s.out ∧ KeepsAllBut [.out] s t
  | some (_, false) => t.out = .readData [0] :: s.out ∧ KeepsAllBut [.out] s t
  | some (id, true) =>
    if id ≠ s.ez.id then
      t = State.sendTo { s with host := { s.host with ap := s.host.ap ++ [.read n.val id none] } } id.toNat
        (.apRead n.val offset.toNat)
    else if ∃ a ∈ s.host.ap, a.writesBy n.val = true then
      t = { s with host := { s.host with ap := s.host.ap ++ [.own n.val offset.toNat] } }
    else ∃ w, t.out = .readData [w] :: s.out ∧ w = (s.regRead offset.toNat).1 ∧
      (offset.toNat % 4 ≠ 0 → w = 0) ∧
      (s.dev.ready = false → 0x10000 ≤ offset.toNat → offset.toNat < 0x380000 → w = 0) ∧
      ShowsCore s offset.toNat w ∧ ShowsUnits s offset.toNat w

/-- A write through an aperture acts on the device itself, goes to the member it names and waits until that has applied it, or is
lost. A host device reset of another member completes the commands in flight to it ABORTED (R26, R248, R269, R290).
The model's choice, no rule of the spec, where the spec leaves open: log entry 80. -/
def apertureWrite : Prop := ∀ (n : Fin 8) (offset : BitVec 22) (v : Word32) s, Powered s →
  Answers (.apertureWrite n offset v) s fun t =>
    match s.apMember n.val with
    | none => t = s
    | some (_, false) => t = { s with ez := { s.ez with apLost := true } }
    | some (id, true) =>
      if id = s.ez.id then t = s.regWrite offset.toNat v
      else
        let u := State.sendTo { s with host := { s.host with ap := s.host.ap ++ [.write n.val id] } } id.toNat
          (.apWrite n.val offset.toNat v)
        t.host.ap = s.host.ap ++ [.write n.val id] ∧ t.ports = u.ports ∧ t.out = u.out ∧
        (offset = 0xC → bit v 0 = true → fldN v 16 16 = 0x0D4C →
          ∀ c ∈ s.host.inflight, c.stage = .remote → c.source = id →
            ∃ d ∈ t.host.inflight, d.names c.sq c.cid = true ∧ d.stage = .committed ∧ d.status = stAborted) ∧
        (¬(offset = 0xC ∧ bit v 0 = true ∧ fldN v 16 16 = 0x0D4C) → t = u)

/-- BAR2 reads the bytes of the mapped region, 0 outside, and 0 before READY (R268, R270). -/
def bar2Read : Prop := ∀ offset length s, Powered s → Answers (.bar2Read offset length) s fun t =>
  t.out = .readBytes ((List.range length).map fun k =>
    if s.dev.ready = true then
      match s.bar2At (offset + k) with
      | some (i, o) => s.memByte i o
      | none => 0
    else 0) :: s.out ∧ KeepsAllBut [.out] s t

/-- BAR2 writes the bytes of mapped SHARED regions, and no other (R268). -/
def bar2Write : Prop := ∀ offset data s, HostUp s → MemoriesOk s → Answers (.bar2Write offset data) s fun t =>
  KeepsAllBut [.regions] s t ∧
  ∀ i o,
    (∀ k < data.length, s.bar2At (offset + k) = some (i, o) → (s.region i).kind = .shared →
      (∀ m < data.length, k < m → s.bar2At (offset + m) ≠ some (i, o)) → t.memByte i o = data.getD k 0) ∧
    ((∀ k < data.length, s.bar2At (offset + k) ≠ some (i, o)) ∨ (s.region i).kind ≠ .shared →
      t.memByte i o = s.memByte i o)

/-- What a write of v leaves in the registers that have no row of their own: a field takes its bits, and a bit that one clears is
cleared by a 1 (R9, R52, R171, R191, R216, R217, R237, R265, R297, R311, R351). -/
def Written (s t : State) (o : Nat) (v : Word32) : Prop :=
  (o = 0x308000 → t = { s with ref := { s.ref with latch := s.ref.latch && !bit v 4 } }) ∧
  (o = 0x310000 → t = { s with trg := { s.trg with
    ignored := s.trg.ignored && !bit v 0
    refused := s.trg.refused && !bit v 1
    mismatch := s.trg.mismatch && !bit v 2 } }) ∧
  (o = 0x320000 → t = { s with log := { s.log with cfg := v &&& 0x01FF1FFF } }) ∧
  (o = 0x320004 → t = { s with log := { s.log with swap := v &&& 0xFFFF0FFF } }) ∧
  (o = 0x320008 → t = { s with log := { s.log with kindEn := v &&& 0xFF } }) ∧
  (o = 0x320020 → t = { s with log := { s.log with
    levelIrq := s.log.levelIrq && !bit v 0
    lost := s.log.lost && !bit v 1 } }) ∧
  (o = 0x330000 → t.ump.ignored = (s.ump.ignored && !bit v 1) ∧ t.ump.refused = (s.ump.refused && !bit v 2) ∧
    t.ump.histOvf = (s.ump.histOvf && !bit v 3)) ∧
  (o = 0x330004 → t = { s with ump := { s.ump with irq := v &&& 0x3FF } }) ∧
  (o = 0x330008 → t = { s with ump := { s.ump with forceDetail := v } }) ∧
  (∀ w < 4, o = 0x330020 + 4 * w → ∀ n < 128,
    t.ump.halt.getLsbD n = if n / 32 = w then v.getLsbD (n % 32) else s.ump.halt.getLsbD n) ∧
  (o = 0x340000 → t = { s with cal := { s.cal with en := bit v 0 } }) ∧
  (o = 0x340008 → t = { s with cal := { s.cal with refused := s.cal.refused && !bit v 24 } }) ∧
  (o = 0x350008 → t = { s with ez := { s.ez with
    surveyFail := s.ez.surveyFail && !bit v 8
    lateEvent := s.ez.lateEvent && !bit v 9
    refused := s.ez.refused && !bit v 10
    apLost := s.ez.apLost && !bit v 11
    catchDrift := s.ez.catchDrift && !bit v 12 } }) ∧
  (o = 0x350040 → t = { s with ea := { s.ea with cfg := v &&& 0xFF } }) ∧
  (o = 0x360000 → t = { s with fc := { s.fc with
    ignored := s.fc.ignored && !bit v 0
    refused := s.fc.refused && !bit v 1
    drainRefused := s.fc.drainRefused && !bit v 2 } }) ∧
  (o = 0x370000 → t = { s with rs := { s.rs with refused := s.rs.refused && !bit v 0 } }) ∧
  (o = 0x370004 → t = { s with rs := { s.rs with irq := v &&& 0x1FF } }) ∧
  (∀ n < 8, (o = 0x370104 + 0x10 * n → t.sn n = { s.sn n with cfg := v &&& 0xFF }) ∧
    (o = 0x370108 + 0x10 * n →
      t.sn n = { s.sn n with evt := (s.sn n).evt &&& ~~~(fld v 4 4), rbErr := (s.sn n).rbErr && !bit v 8 })) ∧
  (∀ q < 256, let b := 0x10100 + 0x1000 * (q / 16) + 0x40 * (q % 16)
    ∀ hi : Bool,
      (o = b + 4 * hi.toNat → (t.qp q).sqBase = if (s.qp q).sqEn then (s.qp q).sqBase
        else setFld (s.qp q).sqBase (if hi then 32 else 0) v &&& ~~~0x3F) ∧
      (o = b + 0x20 + 4 * hi.toNat → (t.qp q).cqBase = if (s.qp q).cqEn then (s.qp q).cqBase
        else setFld (s.qp q).cqBase (if hi then 32 else 0) v &&& ~~~0x3F)) ∧
  (∀ e < 128, o = 0x1000A8 + 0x1000 * e →
    t.eng e = { s.eng e with pdIgnored := (s.eng e).pdIgnored && !bit v 0, pdRefused := (s.eng e).pdRefused && !bit v 1 }) ∧
  (∀ k < 16, ∀ j < 16, let b := 0x201000 + 0x10000 * k + 0x100 * j
    let c := 16 * k + j
    (o = b + 0x10 → t.chan c = { s.chan c with staged := { (s.chan c).staged with vih := fld v 0 16 } }) ∧
    (o = b + 0x14 → t.chan c = { s.chan c with staged := { (s.chan c).staged with vil := fld v 0 16 } }) ∧
    (o = b + 0x1C → t.chan c = { s.chan c with staged := { (s.chan c).staged with voh := fld v 0 16 } }) ∧
    (o = b + 0x20 → t.chan c = { s.chan c with staged := { (s.chan c).staged with vol := fld v 0 16 } })) ∧
  (∀ u < 32, o = 0x30001C + 0x100 * u →
    t.tim u = { s.tim u with ignored := (s.tim u).ignored && !bit v 2, refused := (s.tim u).refused && !bit v 3 }) ∧
  (∀ g < 16, o = 0x311020 + 0x40 * g → t.group g = { s.group g with earlyArm := (s.group g).earlyArm && !bit v 2 }) ∧
  ∀ k < 16, o = 0x312010 + 0x40 * k →
    if (s.acq k).st = .idle then t.acq k = { s.acq k with region := v } else t.acq k = s.acq k ∧ t.trg.ignored = true

/-- A register write acts at its offset: a register with a row of its own as that row, any other as its block says; one through an
aperture as APERTURE_WRITE does, and elsewhere nothing changes (R8, R25, R26). -/
def registerWrite : Prop := ∀ (offset : BitVec 26) (v : Word32) s, Powered s →
  let o := offset.toNat
  Answers (.registerWrite offset v) s fun t =>
    (o < 0x400000 → o % 4 ≠ 0 → t = s) ∧ (0x400000 ≤ o → o < 0x2000000 → t = s) ∧
    (0x2000000 ≤ o → if o % 4 = 0 then
      exec (.apertureWrite ⟨(o - 0x2000000) / 0x400000 % 8, by omega⟩ (BitVec.ofNat 22 ((o - 0x2000000) % 0x400000)) v) s = .next t
      else t = s) ∧
    (o = 0xC → s.bh.recovery = false → exec (.gblCtrlDevReset v) s = .next t) ∧
    (o = 0x3F0004 → t = { s with power := { s.power with wakeEn := v &&& 0x00F0000F } }) ∧
    (s.dev.ready = false → 0x10000 ≤ o → o < 0x380000 → t = s) ∧
    (s.dev.ready = true →
      Written s t o v ∧
      (o = 0x33000C → exec (.umpWireInj v) s = .next t) ∧
      (o = 0x350024 → 4 ≤ fldN v 0 8 → t = { s with ez := { s.ez with tol := fld v 0 8 } }) ∧
      (∀ q : QueueId, o = 0x1010C + 0x1000 * (q.val / 16) + 0x40 * (q.val % 16) → exec (.hqSqTailWrite q v) s = .next t) ∧
      (∀ l : LaneId, o = 0x200010 + 0x10000 * l.val → exec (.lnLvlCommit l v) s = .next t) ∧
      ∀ e : EngineId, o = 0x10000C + 0x1000 * e.val → exec (.coxCfgWrite e v) s = .next t)

/-- An Umpire history entry of the present CK_C cycle (R307). -/
def Entered (s t : State) (n kind : Nat) (detail : Word32) : Prop := ⟨n, kind, detail, s.rtEdge⟩ ∈ t.ump.fresh

/-- Source n takes an event, unless it is broken or its pair held: the pair reads Event, the word is its last, a history entry and,
where its configuration says so, a Log packet carry it, and count, window and quiet period move on. The count that reaches N makes
the source SEVERE, whose vector goes out when the CK_C cycle is over (R299 to R302, R304, R307, R308). -/
def Took (s t : State) (n : Nat) (detail : Word32) : Prop :=
  let r := s.src n
  let x := t.src n
  let most : Nat := fldN r.cfg 0 8
  if r.wire = true ∨ (r.heldAt s.ckC).isSome = true then t = s
  else
    x.last = detail ∧ x.pairP = true ∧ x.pairN = false ∧ Entered s t n 0 detail ∧
    (r.st = .clear → x.count = 1 ∧ x.winAt = s.now ∧ x.st = if most ≤ 1 then .severe else .counting) ∧
    (r.st = .counting → x.count = r.count + 1 ∧ x.winAt = r.winAt ∧
      x.st = if most ≤ (r.count + 1).toNat then .severe else .counting) ∧
    (r.st = .severe → x.st = .severe ∧ x.sevAt = r.sevAt) ∧ (r.st = .escalated → x.st = .escalated ∧ x.quietAt = s.now) ∧
    (r.faulty = false → x.st = .severe → x.sevAt = s.now ∧ Entered s t n 2 0 ∧
      (bit s.ump.irq 8 = true → (n, fldN s.ump.irq 0 8) ∈ t.ump.sevIrq)) ∧
    (bit r.cfg 11 = true → bit s.log.kindEn 5 = true → t.log.finished = s.log.finished ++
      [⟨5, n, [placeN 32 0 n ||| place 32 16 s.ez.id, detail] ++ words64 (rtWord s.rtEdge), s.now, s.rtick⟩])

/-- An event of a source that is not reserved (R298 to R302). -/
def umpireEvent : Prop := ∀ (src : SourceId) detail s, Powered s → Answers (.umpireEvent src detail) s fun t =>
  if reservedSource src.val = true then t = s else Took s t src.val detail

/-- A wire fault sets WIRE, and a source that is not in the fault state becomes SEVERE; the pair stays as its wiring holds it. One
that is already detected only goes on (R299, R300, R302).
The model's choice, no rule of the spec, where the spec leaves open: log entry 89. -/
def wireFault : Prop := ∀ (src : SourceId) level cycles s, Powered s →
  let n := src.val
  let r := s.src n
  Answers (.wireFault src level cycles) s fun t =>
    (t.src n).pairP = level ∧ (t.src n).pairN = level ∧ (t.src n).good = 0 ∧ (t.src n).wireLvl = level ∧
    (t.src n).wireTo = s.ckC + 1 + cycles ∧
    if 3 ≤ r.bad then (t.src n).wire = r.wire ∧ (t.src n).st = r.st ∧ KeepsAllBut [.umpSrcs] s t
    else
      (t.src n).wire = true ∧ Entered s t n 1 0 ∧
      if r.faulty = true then (t.src n).st = r.st
      else (t.src n).st = .severe ∧ (t.src n).sevAt = s.now ∧ Entered s t n 2 0

/-- A window that has run its length returns its source to CLEAR (R301). -/
def umpireWindowClose : Prop := ∀ (src : SourceId) s, Powered s →
  let r := s.src src.val
  Answers (.umpireWindowClose src) s fun t =>
    if r.st = .counting ∧ r.winAt + fldN r.win 0 16 * 1600000 ≤ s.now then
      t.src src.val = { r with st := .clear, count := 0 } ∧ KeepsAllBut [.umpSrcs] s t
    else t = s

/-- The sources whose timers expire in CK_C cycle c are escalated, each with its entry, and their actions are taken: DEVICE_SAFE,
REGATTA_EASYALL, and ENGINE_HALT, which stops the engines it concerns as an ABORT would (R302 to R304, R307). -/
def Expired (s t : State) (c : Nat) : Prop :=
  let l := s.expiring c
  (∀ n ∈ l, (t.src n).st = .escalated ∧ (t.src n).quietAt = s.now ∧ Entered s t n 3 0) ∧
  (l ≠ [] → bit s.ump.irq 9 = true → Signals s t (fld s.ump.irq 0 8)) ∧
  (∀ n ∈ l, (s.src n).action = 2 → (s.dev.base = .boot → t.dev.safePend = true) ∧ (s.dev.base ≠ .boot → t.dev.base = .safe)) ∧
  (∀ n ∈ l, (s.src n).action = 3 → t.ea.latched = true) ∧
  ∀ n ∈ l, (s.src n).action = 1 → (∀ m ∈ l, (s.src m).action ≠ 2 ∧ (s.src m).action ≠ 3) → ∀ e ∈ s.haltTargets n,
    ((s.eng e).st = .held → (t.eng e).st = .halted) ∧
    ∀ g, (s.eng e).st = .running → (s.eng e).heat = some g → ∃ x, (t.eng e).heat = some x ∧ x.abort.isSome = true

/-- A reaction timer that has run out escalates its source, and with it every source whose timer expires in the same CK_C cycle
(R302 to R304).
The model's choice, no rule of the spec, where the spec leaves open: log entry 90. -/
def reactionTimerExpiry : Prop := ∀ (src : SourceId) s, Powered s →
  let r := s.src src.val
  Answers (.reactionTimerExpiry src) s fun t =>
    if r.st = .severe ∧ r.dueAt ≤ s.now then Expired s t (r.dueAt / 2) else t = s

/-- An escalated source that has been quiet long enough, with a valid pair, recovers (R302, R307). -/
def quietRecovery : Prop := ∀ (src : SourceId) s, Powered s →
  let r := s.src src.val
  Answers (.quietRecovery src) s fun t =>
    if r.st = .escalated ∧ r.wire = false ∧ r.quietAt + fldN r.win 16 16 * 1600000 ≤ s.now then
      t.src src.val = { r with st := .clear, count := 0, recoveries := satInc r.recoveries } ∧ Entered s t src.val 4 0
    else t = s

/-- CLEAR returns a source to CLEAR after a timer that expires in the same CK_C cycle has acted, and before the events of the cycle,
which open a new window; a vector for an entry to SEVERE that those events had made before it is not sent. WIRE clears only where
the pair reads valid (R300, R302, R304).
The model's choice, no rule of the spec, where the spec leaves open: log entry 21. -/
def umpSrcClear : Prop := ∀ (src : SourceId) s, HostUp s →
  let n := src.val
  let due := decide ((s.src n).st = .severe) && decide ((s.src n).dueAt / 2 ≤ s.ckC)
  let u := if due then s.expire ((s.src n).dueAt / 2) else s
  let k := (u.freshOf n 0).length
  let most : Nat := fldN (u.src n).cfg 0 8
  Answers (.umpSrcClear src) s fun t =>
    (due = false → u = s) ∧ (due = true → Expired s u ((s.src n).dueAt / 2)) ∧
    (t.src n).wire = ((u.src n).wire && decide ((u.src n).good < 3)) ∧
    (((u.src n).beforeEvents u.ckC).faulty = true → Entered u t n 5 0) ∧
    if k = 0 then (t.src n).st = .clear ∧ (t.src n).count = 0
    else if most ≤ k then (t.src n).st = .severe ∧ (t.src n).sevAt = s.now ∧ ∃ x ∈ t.ump.fresh, x.src = n ∧ x.kind = 2
    else (t.src n).st = .counting ∧ (t.src n).count = BitVec.ofNat 8 k ∧ (t.src n).winAt = s.now ∧
      (u.freshOf n 2 ≠ [] → ∀ x ∈ t.ump.sevIrq, x.1 ≠ n)

/-- FORCE acts as one event with the detail of UMP_FORCE, on a reserved source too (R309). -/
def umpSrcForce : Prop := ∀ (src : SourceId) s, HostUp s → Answers (.umpSrcForce src) s fun t =>
  Took s t src.val s.ump.forceDetail

/-- UMP_WIRE_INJ takes its fields; in DIAG its GO drives both wires of a pair to its level for its cycles, and out of DIAG it is
refused (R310).
The model's choice, no rule of the spec, where the spec leaves open: log entry 21. -/
def umpWireInj : Prop := ∀ (v : Word32) s, HostUp s →
  let n := fldN v 0 7
  let e := s.ckC + 1 + fldN v 12 4
  Answers (.umpWireInj v) s fun t =>
    if bit v 31 = false then t = { s with ump := { s.ump with wireInj := v &&& 0xF17F } }
    else if s.mode ≠ .diag then t = { s with ump := { s.ump with refused := true } }
    else if 96 ≤ n ∨ fldN v 12 4 = 0 then t = { s with ump := { s.ump with wireInj := v &&& 0xF17F, injTo := max s.ump.injTo e } }
    else
      t.ump = { s.ump with wireInj := v &&& 0xF17F, injTo := max s.ump.injTo e } ∧
      t.src n = { s.src n with injTo := e, injLvl := bit v 8 } ∧
      (∀ c, s.ckC ≤ c → c < e → (t.src n).heldAt c = some (bit v 8)) ∧ KeepsAllBut [.umpCfg, .umpSrcs] s t

/-- A source that is not in the fault state takes a configuration value that R311 allows; one that is ignores it, and another value
is refused (R304, R311). -/
def umpSrcConfigWrite : Prop := ∀ (src : SourceId) (r : UmpReg) (v : Word32) s, HostUp s →
  Answers (.umpSrcConfigWrite src r v) s fun t =>
    if (s.src src.val).faulty = true then t = { s with ump := { s.ump with ignored := true } }
    else if (match r with
        | .cfg => decide (fldN v 0 8 = 0) || decide (4 ≤ fldN v 8 3)
        | .win => decide (fldN v 0 16 = 0) || decide (fldN v 16 16 = 0)
        | .timer => decide (fldN v 0 20 = 0) || decide (1000000 < fldN v 0 20)) then t = { s with ump := { s.ump with refused := true } }
    else
      KeepsAllBut [.umpSrcs] s t ∧ t.src src.val =
        match r with
        | .cfg => { s.src src.val with cfg := v &&& 0xFFF }
        | .win => { s.src src.val with win := v }
        | .timer => { s.src src.val with timer := v &&& 0xFFFFF }

end Sys2Proof.Machine.Completes

namespace Sys2Proof.Machine.Completes

/-! The Boathouse (R312 to R334). -/

/-- The message is answered with this status and response: on a queue the response is cut at RSP_LEN, its length reported, and the
bytes written to the host; in the mailbox it is whole, and on the management port TYPE, a zero and the status come before it (R277,
R317, R318, R334). -/
def Replied (t : State) (src : MsgSrc) (typ : Nat) (st : Byte) (rsp : List Byte) : Prop :=
  match src with
  | .queue h n p =>
    Result t h st 0 0 (BitVec.ofNat 64 (rsp.take n.toNat).length) ∧
    (rsp.take n.toNat ≠ [] → Out.hostWrite p.toNat (rsp.take n.toNat) ∈ t.out)
  | .mailbox =>
    t.bh.mbxBusy = false ∧ t.bh.mbxStatus = st ∧ t.bh.mbxRspLen = BitVec.ofNat 13 rsp.length ∧
    t.bh.mbxRsp = Memory.writeN 0 [] 0 rsp
  | .mctp _ => Out.mctp (bytesLE 2 typ ++ [0, st] ++ rsp) ∈ t.out

/-- The message came on the PCIe port (R318). -/
def onPcie (src : MsgSrc) : Bool := match src with | .mctp _ => false | _ => true

/-- The same with no effect but the answer and the end of a proposal whose time is over. -/
def Declined (s t : State) (src : MsgSrc) (typ : Nat) (st : Byte) : Prop :=
  Replied t src typ st [] ∧ KeepsAllBut mbxParts s t

/-- A message of a type arrives on a queue, in the mailbox or on the management port. A queue's with more than 4,096 bytes is
BAD_COMMAND, and one of an ADMIN type from a context without ADMIN is DENIED; the mailbox serves the one that waits there; on the
management port the packets for the address in force whose PEC is good make the message, one of a TYPE that does not exist is
answered BAD_COMMAND, and packets that make none are dropped. In recovery only some types are served; a mailbox sender without
ADMIN, or a port that may not carry the type, is DENIED. For any other, P says what the answer and the state are, with the body as
it arrived. While the core is halted no message is served (R276, R317 to R322, R324, R331, R334).
The model's choice, no rule of the spec, where the spec leaves open: log entries 24 and 49. -/
def Handles (i : Instr) (src : MsgSrc) (body : List Byte) (typ : Nat) (admin : Bool) (ports : MsgPorts)
    (P : State → State → List Byte → Prop) : Prop :=
  ∀ s, Powered s → (match src with | .queue h _ _ => Serves s i h anyRec | _ => True) → Answers i s fun t =>
    let judged (mayAdmin : Bool) (l : List Byte) : Prop :=
      if s.bh.recovery = true ∧ recoveryType typ = false then Declined s t src typ stNotReady
      else if (admin = true ∧ mayAdmin = false) ∨ ports.allow s.bh.updatePolicy (onPcie src) = false then
        Declined s t src typ stDenied
      else P s t l
    match src with
    | .queue h n _ =>
      if 4096 < body.length ∨ 4096 < n.toNat then Refuses s t h stBadCommand
      else if admin = true ∧ bit (s.recOf h).perms 1 = false then Refuses s t h stDenied
      else if s.bh.core.halted = true then Waits t h
      else judged true body
    | .mailbox =>
      if s.bh.mbxBusy = false ∨ s.bh.mbxJob.1.toNat ≠ typ ∨ s.bh.core.halted = true then t = s
      else judged (bit (s.entryRec 0).perms 1) s.bh.mbxJob.2
    | .mctp pkts =>
      match s.mctpRequest pkts with
      | none => t = s
      | some (u, l) =>
        if s.bh.core.halted = true then t = s
        else if u = typ ∧ l = body then judged true l
        else if messageTypes.contains u = true then t = s
        else t.out = .mctp (bytesLE 2 u ++ [0, stBadCommand]) :: s.out ∧ KeepsAllBut [.out] s t

/-- GET_INFO: 64 bytes that begin with GBL_ID, BH_STATUS and the policy sequence; the slots' versions and SVNs follow (log entry
22) (R319). -/
def getInfo : Prop := ∀ src body, Handles (.getInfo src body) src body 1 false .both fun s t l =>
  let w : List Word32 := [s.gblId, s.bhStatus, s.bh.policySeq, Config.imageVersion (s.slotHeader false),
    Config.imageVersion (s.slotHeader true), (s.slotSvn false).setWidth 32, (s.slotSvn true).setWidth 32]
  if l ≠ [] then Declined s t src 1 stBadCommand
  else Replied t src 1 stOk ((w.flatMap fun x => bytesLE 4 x.toNat) ++ List.replicate 36 0)

/-- READ_SENSORS: the 24 temperatures, then each supply's voltage and current (R319). -/
def readSensors : Prop := ∀ src body, Handles (.readSensors src body) src body 2 false .both fun s t l =>
  if l ≠ [] then Declined s t src 2 stBadCommand
  else Replied t src 2 stOk (((List.range 24).flatMap fun n => bytesLE 2 (s.bhTemp n).toNat) ++
    (List.range 9).flatMap fun n => bytesLE 2 (s.bhVolt n).toNat ++ bytesLE 2 (s.bhCurrent n).toNat)

/-- The entries of the log area, the oldest first (R316). -/
def logOf (s : State) : List (List Byte) :=
  (List.range 65536).map fun i => s.bh.flash.readN 0xFF (0x03800000 + 64 * ((s.bh.logPtr + i) % 65536)) 64

/-- READ_LOG serves 1 to 63 entries from a SEQ on, in their order: those that are written and whose CRC holds, and the count of
those whose CRC fails (R316, R319). -/
def readLog : Prop := ∀ src body, Handles (.readLog src body) src body 3 false .both fun s t l =>
  let first := leNat (l.take 4)
  let count := leNat (l.drop 4)
  let sought (e : List Byte) : Bool := decide (leNat (e.take 4) ≠ 0xFFFFFFFF) && decide (first ≤ leNat (e.take 4))
  let sound (e : List Byte) : Bool := decide (leNat (sliceB e 60 4) = (crc32Bytes (e.take 60)).toNat)
  if l.length ≠ 8 ∨ count = 0 ∨ 63 < count then Declined s t src 3 stBadCommand
  else
    ∃ got bad, Replied t src 3 stOk (bytesLE 4 got.length ++ bytesLE 4 bad ++ got.flatten) ∧
      got = ((logOf s).filter fun e => sought e && sound e).take count ∧
      (got.length < count → bad = ((logOf s).filter fun e => sought e && !sound e).length)

/-- UPDATE_ERASE erases whole sectors of the inactive slot, and VERIFIED is lost; a range that is not whole sectors of the slot is
BAD_COMMAND (R320, R321). -/
def updateErase : Prop := ∀ src body, Handles (.updateErase src body) src body 0x10 true .update fun s t l =>
  let off := leNat (l.take 4)
  let n := leNat (l.drop 4) * 65536
  let a := slotBase s.inactiveB + off
  if l.length ≠ 8 ∨ off % 65536 ≠ 0 ∨ 0x01000000 < off + n then Declined s t src 0x10 stBadCommand
  else
    Replied t src 0x10 stOk [] ∧ t.bh.verified = false ∧ ∀ x, a ≤ x → x < a + n → t.slotByte x = 0xFF

/-- UPDATE_WRITE writes whole pages of the inactive slot, and VERIFIED is lost; over bytes that are not erased it is NOT_ERASED
(R320, R321). -/
def updateWrite : Prop := ∀ src body, Handles (.updateWrite src body) src body 0x11 true .update fun s t l =>
  let off := leNat (sliceB l 0 4)
  let n := leNat (sliceB l 4 4)
  let a := slotBase s.inactiveB + off
  if l.length ≠ 8 + n ∨ 3840 < n ∨ off % 256 ≠ 0 ∨ n % 256 ≠ 0 ∨ 0x01000000 < off + n then
    Declined s t src 0x11 stBadCommand
  else if ∃ k ∈ List.range n, s.slotByte (a + k) ≠ 0xFF then Declined s t src 0x11 stNotErased
  else Replied t src 0x11 stOk [] ∧ t.bh.verified = false ∧
    (Memory.wf 0xFF s.bh.flash = true → ∀ k < n, l.getD (8 + k) 0 ≠ 0xFF → t.slotByte (a + k) = l.getD (8 + k) 0)

/-- A security event of this kind: source 73 hears of it (R298, R333). -/
abbrev Security (s t : State) (kind : Nat) : Prop := Reported s t 73 (BitVec.ofNat 32 kind)

/-- UPDATE_VERIFY sets VERIFIED for a good image whose SVN is not below the rollback counter, and answers its SVN and version; else
it is DENIED, a security event of kind 2 or 5 (R321, R333).
The model's choice, no rule of the spec, where the spec leaves open: log entries 22 and 154. -/
def updateVerify : Prop := ∀ src body, Handles (.updateVerify src body) src body 0x12 true .update fun s t l =>
  let b := s.inactiveB
  if l ≠ [] then Declined s t src 0x12 stBadCommand
  else if s.imageGood b = false then
    Replied t src 0x12 stDenied [] ∧ t.bh.verified = s.bh.verified ∧ Security s t 2
  else if (s.slotSvn b).toNat < s.bh.svn.toNat then
    Replied t src 0x12 stDenied [] ∧ t.bh.verified = s.bh.verified ∧ Security s t 5
  else
    t.bh.verified = true ∧ Replied t src 0x12 stOk
      (bytesLE 4 (s.slotSvn b).toNat ++ bytesLE 4 (Config.imageVersion (s.slotHeader b)).toNat)

/-- UPDATE_ACTIVATE makes a verified slot the one that boots next (R321). -/
def updateActivate : Prop := ∀ src body, Handles (.updateActivate src body) src body 0x13 true .update fun s t l =>
  if l ≠ [] then Declined s t src 0x13 stBadCommand
  else if s.bh.verified = false then Declined s t src 0x13 stNotReady
  else t.bh.nextB = s.inactiveB ∧ t.bh.slotB = s.bh.slotB ∧ Replied t src 0x13 stOk []

/-- PROPOSE: with a proposal pending NOT_READY, malformed BAD_COMMAND, out of sequence or forbidden DENIED; else it is pending
without signatures, and its digest is the response (R326, R327, R329).
The model's choice, no rule of the spec, where the spec leaves open: log entry 85. -/
def propose : Prop := ∀ src body, Handles (.propose src body) src body 0x20 true .both fun s t l =>
  if s.expireProposal.bh.proposal.isSome = true then Declined s t src 0x20 stNotReady
  else if s.proposalBad l = true then Declined s t src 0x20 stBadCommand
  else if leNat (sliceB l 8 4) ≠ s.bh.policySeq.toNat ∨ s.proposalForbidden ⟨l, false, false, s.now⟩ = true then
    Declined s t src 0x20 stDenied
  else
    t.bh.proposal = some ⟨l, false, false, s.now⟩ ∧ t.bh.policySeq = s.bh.policySeq ∧
    Replied t src 0x20 stOk (bytesBE48 (sha384 l))

/-- SIGN notes the signature of the port's party where it verifies with that party's key, and answers those there are; else it is
DENIED, a security event of kind 3 (R326, R327, R333).
The model's choice, no rule of the spec, where the spec leaves open: log entry 154. -/
def sign : Prop := ∀ src body, Handles (.sign src body) src body 0x21 true .both fun s t l =>
  if l.length ≠ 144 then Declined s t src 0x21 stBadCommand
  else
    match s.expireProposal.pendingOf (l.take 48) with
    | none => Declined s t src 0x21 stBadCommand
    | some p =>
      let a := p.sigA || onPcie src
      let b := p.sigB || !onPcie src
      if s.bh.keysSet = true ∧
          ecdsaVerify (if onPcie src then s.bh.keyA else s.bh.keyB) p.digest (beBits 768 (l.drop 48)) = true then
        t.bh.proposal = some { p with sigA := a, sigB := b } ∧
        Replied t src 0x21 stOk (bytesLE 4 (a.toNat + 2 * b.toNat))
      else t.bh.proposal = some p ∧ Replied t src 0x21 stDenied [] ∧ Security s t 3

/-- What a committed proposal changes, by its kind; in RETURNED no key is made (R326, R328, R329, R331). -/
def Committed (s t : State) (p : Proposal) : Prop :=
  let l := p.body
  (p.kind = 0 → t.bh.members = BitVec.ofNat 64 (leNat (sliceB l 8 8)) ∧
    t.bh.recs = (List.range 16).map fun c => (c, entryRecOf (sliceB l (64 + 64 * c) 64))) ∧
  (p.kind = 1 → t.bh.debugPolicy = BitVec.ofNat 32 (leNat (sliceB l 0 4)) ∧ t.bh.ownerKey = beBits 768 (sliceB l 4 96)) ∧
  (p.kind = 2 → t.bh.updatePolicy = BitVec.ofNat 32 (leNat (sliceB l 0 4))) ∧
  (p.kind = 3 → ∀ c < 16,
    if l.getD c 0 = 1 ∧ s.bh.lifecycle ≠ 2 then
      ∃ g, SMap.get? t.bh.keys c = some g ∧ s.bh.keySeq < g ∧ SMap.get? t.bh.keyBits g = some (Config.newKey g)
    else if l.getD c 0 = 2 then SMap.get? t.bh.keys c = none
    else SMap.get? t.bh.keys c = SMap.get? s.bh.keys c) ∧
  (p.kind = 4 → t.bh.keyA = beBits 768 (sliceB l 0 96) ∧ t.bh.keyB = beBits 768 (sliceB l 96 96) ∧ t.bh.keysSet = true) ∧
  (p.kind = 5 → t.bh.lifecycle = BitVec.ofNat 2 (leNat l) ∧ t.bh.keyEpoch = s.bh.keyEpoch + 1 ∧ t.bh.keys = [] ∧
    t.bh.keyBits = [])

/-- COMMIT of the pending proposal with the signatures it needs: the change takes effect and the sequence advances. Without them it
is DENIED, a security event of kind 4; a lifecycle move while debug is UNLOCKED is DENIED (log entry 25) (R326, R327, R333).
The model's choice, no rule of the spec, where the spec leaves open: log entries 85 and 146. -/
def commit : Prop := ∀ src body, Handles (.commit src body) src body 0x22 true .both fun s t l =>
  if l.length ≠ 48 then Declined s t src 0x22 stBadCommand
  else
    match s.expireProposal.pendingOf l with
    | none => Declined s t src 0x22 stBadCommand
    | some p =>
      if s.needsSigs p = true ∧ (p.sigA = false ∨ p.sigB = false) then
        Replied t src 0x22 stDenied [] ∧ t.bh.proposal = some p ∧ t.bh.policySeq = s.bh.policySeq ∧ Security s t 4
      else if p.kind = 5 ∧ s.bh.unlocked = true then Declined s t src 0x22 stDenied
      else
        t.bh.proposal = none ∧ t.bh.policySeq = s.bh.policySeq + 1 ∧ Committed s t p ∧
        ((match src with | .queue h _ _ => (h.sq, h.cid) ∉ s.waitNames | _ => True) →
          Replied t src 0x22 stOk (bytesLE 4 (s.bh.policySeq + 1).toNat))

/-- CANCEL drops the proposal it names (R327). -/
def cancel : Prop := ∀ src body, Handles (.cancel src body) src body 0x23 true .both fun s t l =>
  if l.length ≠ 48 ∨ s.expireProposal.pendingOf l = none then Declined s t src 0x23 stBadCommand
  else t.bh.proposal = none ∧ Replied t src 0x23 stOk []

/-- GET_PROPOSAL gives BH_PROPOSAL and the proposal's bytes (R319). -/
def getProposal : Prop := ∀ src body, Handles (.getProposal src body) src body 0x24 false .both fun s t l =>
  if l ≠ [] then Declined s t src 0x24 stBadCommand
  else Replied t src 0x24 stOk (bytesLE 4 s.expireProposal.bhProposal.toNat ++
    (match s.expireProposal.bh.proposal with | some p => p.bytes | none => []))

/-- A proposal lives 600 s (R327). -/
def proposalExpiry : Prop := ∀ s, Powered s → Answers .proposalExpiry s fun t =>
  if ∃ p ∈ s.bh.proposal, p.at_ + 960000000000 ≤ s.now then
    t.bh.proposal = none ∧ KeepsAllBut [.proposal, .policyStore] s t
  else t = s

/-- DEBUG_CHALLENGE gives a challenge, which replaces an earlier one (R330). -/
def debugChallenge : Prop := ∀ src body, Handles (.debugChallenge src body) src body 0x30 true .both fun s t l =>
  if l.length ≠ 4 then Declined s t src 0x30 stBadCommand
  else
    t.bh.challenge = some (Config.challenge s.bh.chalSeq, BitVec.ofNat 32 (leNat l), s.now) ∧
    t.bh.chalSeq = s.bh.chalSeq + 1 ∧ Replied t src 0x30 stOk (bytesBE48 (Config.challenge s.bh.chalSeq))

/-- A good DEBUG_RESPONSE unlocks the scope of its challenge, in RETURNED every scope, and a drain or merge under way ends; any
other is DENIED, a security event of kind 1. Both consume the challenge (R330, R331, R333).
The model's choice, no rule of the spec, where the spec leaves open: log entries 25 and 154. -/
def debugResponse : Prop := ∀ src body, Handles (.debugResponse src body) src body 0x31 true .both fun s t l =>
  if l.length ≠ 100 then Declined s t src 0x31 stBadCommand
  else
    t.bh.challenge = none ∧
    match s.debugScope l with
    | some scope =>
      t.bh.unlocked = true ∧ t.bh.scope = (if s.bh.lifecycle = 2 then BitVec.allOnes 32 else scope) ∧
      t.fc.job = none ∧ t.fc.merges = [] ∧ Replied t src 0x31 stOk []
    | none => t.bh.unlocked = s.bh.unlocked ∧ t.bh.scope = s.bh.scope ∧ Replied t src 0x31 stDenied [] ∧ Security s t 1

/-- A challenge lives 60 s (R330). -/
def debugChallengeExpiry : Prop := ∀ s, Powered s → Answers .debugChallengeExpiry s fun t =>
  if ∃ c ∈ s.bh.challenge, c.2.2 + 96000000000 ≤ s.now then t = { s with bh := { s.bh with challenge := none } } else t = s

/-- DEBUG_LOCK locks (R330). -/
def debugLock : Prop := ∀ src body, Handles (.debugLock src body) src body 0x32 false .both fun s t l =>
  if l ≠ [] then Declined s t src 0x32 stBadCommand
  else t.bh.unlocked = false ∧ (s.bh.unlocked = true → t.bh.scope = 0 ∧ t.bh.core.halted = false) ∧ Replied t src 0x32 stOk []

/-- SET_PARTY_KEYS installs both keys in FACTORY, and is DENIED later (R319). -/
def setPartyKeys : Prop := ∀ src body, Handles (.setPartyKeys src body) src body 0x40 true .pcie fun s t l =>
  if l.length ≠ 192 then Declined s t src 0x40 stBadCommand
  else if s.bh.lifecycle ≠ 0 then Declined s t src 0x40 stDenied
  else
    t.bh.keyA = beBits 768 (l.take 96) ∧ t.bh.keyB = beBits 768 (l.drop 96) ∧ t.bh.keysSet = true ∧
    Replied t src 0x40 stOk []

/-- Control row i comes in on the management port: packets that make no message are dropped, and else P says what the answer and
the state are, with the message's bytes (R317). -/
def Controls (i : Packets → Instr) (P : State → State → List Byte → Prop) : Prop := ∀ pkts s, Powered s →
  Answers (i pkts) s fun t =>
    match s.assemble pkts with
    | none => t = s
    | some l => P s t l

/-- The MCTP control messages (R317): their bodies are DSP0236's (log entry 26). -/
def setEndpointId : Prop := ∀ eid, Controls (.setEndpointId eid) fun s t l =>
  if l.length ≠ 2 ∨ l.getD 1 0 ≠ eid then t = s
  else if eid = 0 ∨ eid = 0xFF then t.out = .mctpCtl [2] :: s.out ∧ KeepsAllBut [.out] s t
  else t.bh.eid = eid ∧ t.out = .mctpCtl [0, 0, eid, 0] :: s.out ∧ KeepsAllBut [.out, .eid] s t

def getEndpointId : Prop := Controls .getEndpointId fun s t _ => t.out = .mctpCtl [0, s.bh.eid, 0, 0] :: s.out

def getMctpVersionSupport : Prop :=
  Controls .getMctpVersionSupport fun s t _ => t.out = .mctpCtl [0, 1, 0xF1, 0xF3, 0xF0, 0] :: s.out

def getMessageTypeSupport : Prop := Controls .getMessageTypeSupport fun s t _ => t.out = .mctpCtl [0, 1, 0x7E] :: s.out

/-- The PCI vendor ID, and two bytes of a version that the spec does not state: free. -/
def getVendorDefinedMessageSupport : Prop := Controls .getVendorDefinedMessageSupport fun s t _ =>
  ∃ a b, t.out = .mctpCtl [0, 0xFF, 0, fld Config.pciVendorId 8 8, fld Config.pciVendorId 0 8, a, b] :: s.out

/-- 100 ms after firmware last restarted it the watchdog resets the Boathouse's core: an event of source 71 tells where it was, the
messages in progress here end ABORTED, and VERIFIED is lost; a proposal stays. Earlier, or while the core is halted, nothing happens
(R298, R312, R314, R321).
The model's choice, no rule of the spec, where the spec leaves open: log entry 134. -/
def boathouseWatchdogExpiry : Prop := ∀ pc s, Powered s → Answers (.boathouseWatchdogExpiry pc) s fun t =>
  if s.bh.core.halted = true ∨ s.now < s.bh.core.wdAt + 160000000 then t = s
  else
    t.bh.verified = false ∧ t.bh.proposal = s.bh.proposal ∧ t.bh.core.wdAt = s.now ∧ t.bh.core.sram = s.bh.core.sram ∧
    Reported s t 71 pc ∧
    (s.bh.mbxBusy = true → t.bh.mbxBusy = false ∧ t.bh.mbxStatus = stAborted ∧ t.bh.mbxRspLen = 0) ∧
    ∀ c ∈ s.host.inflight, c.opc = 0x3A → c.stage = .started → c.target = s.ez.id →
      ∃ d ∈ t.host.inflight, d.seq = c.seq ∧ d.stage = .committed ∧ d.status = stAborted

/-- The readings are kept, and those beyond a limit are events: an HBM stack above 95 °C of source 35, a sensor above 100 °C of
source 59 and above 107 °C of source 60, a supply more than 5 % off its nominal voltage of sources 61 to 69 (R298, R313, R334).
The model's choice, no rule of the spec, where the spec leaves open: log entry 27. -/
def sensorRead : Prop := ∀ temps volts currents s, Powered s →
  let hot (n lim : Nat) : Prop := (16 * lim : Int) < ((temps : List (BitVec 16)).getD n 0).toInt
  Answers (.sensorRead temps volts currents) s fun t =>
    (∀ n < 24, t.bhTemp n = temps.getD n 0) ∧ (∀ n < 9, t.bhVolt n = volts.getD n 0 ∧ t.bhCurrent n = currents.getD n 0) ∧
    t.bh.core.wdAt = s.now ∧
    (∀ k < 2, (hot (20 + 2 * k) 95 ∨ hot (21 + 2 * k) 95) → (k = 0 → ¬hot 22 95 ∧ ¬hot 23 95) →
      Reported s t 35 (BitVec.ofNat 32 k)) ∧
    (∀ n < 24, hot n 100 → (∀ m < 24, n < m → ¬hot m 100) → Reported s t 59 (BitVec.ofNat 32 n)) ∧
    (∀ n < 24, hot n 107 → (∀ m < 24, n < m → ¬hot m 107) → Reported s t 60 (BitVec.ofNat 32 n)) ∧
    ∀ n < 9, ∀ v, volts[n]? = some v → supplyBad n v = true → Reported s t (61 + n) (v.setWidth 32)

/-- A die more than 15 °C hotter than the other has its lanes derated, until a hundred readings in a row lie within 12 °C; supplies
more than 30 mV apart have every lane derated, until a hundred lie within 24 mV. The lanes show their supply, and lanes newly
derated are an event of source 58 (R298, R367, R368).
The model's choice, no rule of the spec, where the spec leaves open: log entry 95. -/
def crossDieCheck : Prop := ∀ (v0 v1 : BitVec 16) s, Powered s →
  let d := s.dieTemp 1 - s.dieTemp 0
  let v := (v1.toInt - v0.toInt).natAbs
  let tr := if d.natAbs ≤ 192 then s.dev.tempRun + 1 else 0
  let vr := if v ≤ 120 then s.dev.voltRun + 1 else 0
  Answers (.crossDieCheck v0 v1) s fun t =>
    t.dev.tempRun = tr ∧ t.dev.voltRun = vr ∧
    (∀ k < 16,
      (t.lane k).derTemp = (decide (240 < (if k < 8 then -d else d)) || ((s.lane k).derTemp && decide (tr < 100))) ∧
      (t.lane k).derVolt = (decide (150 < v) || ((s.lane k).derVolt && decide (vr < 100))) ∧
      (t.lane k).derSeen = ((s.lane k).derSeen || (t.lane k).derated) ∧ (t.lane k).vddh = (if k < 8 then v0 else v1)) ∧
    ((∃ k ∈ List.range 16, (t.lane k).derated = true ∧ (s.lane k).derated = false) →
      Reported s t 58 (t.deratedLanes.setWidth 32))

/-- A TAP instruction is loaded. The boundary tests put the device in SAFE, in BOOT once it ends. A private one acts as BYPASS while
debug is LOCKED and reaches the debug port while it is UNLOCKED: in RETURNED, or where the scope opens it, a halt stops the core,
which runs on after a run, and its SRAM is read where the lifecycle lets it be (R331, R332, R335).
The model's choice, no rule of the spec, where the spec leaves open: log entry 147. -/
def tapInstructionLoad : Prop := ∀ i s, Powered s → Answers (.tapInstructionLoad i) s fun t =>
  t.dev.tap = i ∧ t.tapActs = (if s.bh.unlocked then i else match i with | .debugAccess _ => .bypass | j => j) ∧
  match i with
  | .extest | .extestPulse | .extestTrain =>
    (s.dev.base = .boot → t.dev.safePend = true) ∧ (s.dev.base ≠ .boot → t.dev.base = .safe)
  | .debugAccess op =>
    let u := { s with dev := { s.dev with tap := i } }
    if s.bh.unlocked = true ∧ (s.bh.lifecycle = 2 ∨ Config.scopeOpens s.bh.scope op = true) then
      (op = .halt → t.bh.core.halted = true) ∧ (op = .run → t.bh.core.halted = false ∧ t.bh.core.wdAt = s.now) ∧
      (∀ a, op = .readSram a → t.out = (if s.bh.lifecycle = 1 then s.out
        else .debugData (Memory.read 0 s.bh.core.sram a.toNat).toNat :: s.out)) ∧
      (∀ o, op = .readPolicy o → (t.out = s.out ↔ s.bh.lifecycle = 0)) ∧
      (∀ a v, op = .writeSram a v → s.bh.lifecycle ≠ 2 → t = u)
    else t = u
  | _ => t = { s with dev := { s.dev with tap := i } }

end Sys2Proof.Machine.Completes

namespace Sys2Proof.Machine.Completes

/-! Power, resets and rail-sense (R335 to R353). -/

/-- A failure series is open: a retry is due, the device is held, or an attempt after a first one runs (R345). -/
abbrev InSeries (s : State) : Prop :=
  s.power.retryAt.isSome = true ∨ s.power.held = true ∨ (s.power.waking = true ∧ 1 < s.power.attempts)

/-- A wake by w starts an attempt of a new series: the source is recorded, bit 4 set by the tone and the comparator by rail-sense,
which stays else; a tone goes to each downstream link that AON_WAKE_EN names, and PWR_EN0 alone is raised (R342 to R345, R352). -/
def Wakes (s t : State) (w : WakeSrc) : Prop :=
  t.power.waking = true ∧ t.power.pwrEn = 1 ∧ t.power.falling = 0 ∧ t.power.pg = 0 ∧ t.power.raisedAt = s.now ∧
  t.power.pgAt = none ∧ t.power.attempts = 1 ∧ t.power.held = false ∧ t.power.retryAt = none ∧
  fldN t.power.cause 0 4 = 8 ∧
  fldN t.power.cause 8 3 = (match w with | .e0Squelch => 1 | .pcieSquelch => 2 | .tone => 3 | .rail _ _ => 4) ∧
  fldN t.power.cause 12 3 = (match w with | .rail n _ => n.val | _ => fldN s.power.cause 12 3) ∧
  bit t.power.cause 4 = (bit s.power.cause 4 || decide (w = .tone)) ∧
  ∀ p < 4, bit s.power.wakeEn (20 + p) = true → Out.tone (p + 1) ∈ t.out

/-- What a wake condition counts as outside a failure series: its own source where that is enabled, and squelch on E0 for a tone
that is enabled as that alone (R342). -/
def countsAs (s : State) (w : WakeSrc) : Option WakeSrc :=
  if s.wakeEnabled w then some w
  else if w = .tone ∧ s.wakeEnabled .e0Squelch = true then some .e0Squelch
  else none

/-- In Stop an enabled source wakes the device once its detector is armed, a tone as squelch on E0 where it is enabled as that
alone; in a failure series only the tone does. The tone that follows a wake by squelch becomes the source (log entry 47). A
rail-sense event that is selected for wake is latched. Without power, or in Run, nothing happens (R342 to R345, R348, R352). -/
def wakeDetected : Prop := ∀ w s, Answers (.wakeDetected w) s fun t =>
  if s.dev.base = .stop ∧ s.power.vaon = true then
    (∀ n ev, w = .rail n ev → (t.sn n.val).evt =
      if bit (s.sn n.val).cfg (4 + ev.val) then setBit (s.sn n.val).evt ev.val true else (s.sn n.val).evt) ∧
    if InSeries s then (if w = .tone ∧ s.wakeEnabled .tone = true then Wakes s t .tone else KeepsAllBut [.sns] s t)
    else if s.power.detArmed = true then
      match countsAs s w with
      | some x => Wakes s t x
      | none => KeepsAllBut [.sns] s t
    else if w = .tone ∧ s.wakeEnabled .tone = true ∧ s.power.waking = true ∧ s.power.attempts = 1 ∧ bit s.power.cause 3 = true ∧
        fldN s.power.cause 8 3 = 1 then
      t = { s with power := { s.power with cause := t.power.cause } } ∧ fldN t.power.cause 8 3 = 3 ∧
      bit t.power.cause 4 = true ∧ fldN t.power.cause 12 3 = fldN s.power.cause 12 3 ∧ fldN t.power.cause 0 4 = fldN s.power.cause 0 4
    else KeepsAllBut [.sns] s t
  else t = s

/-- Wake detectors arm in Stop 1 ms after the groups have lost power, and a condition still present then wakes at once (R343). -/
def wakeDetectorArmed : Prop := ∀ (w : Option WakeSrc) s, Answers (.wakeDetectorArmed w) s fun t =>
  if s.dev.base = .stop ∧ s.power.vaon = true ∧ s.power.waking = false ∧ s.power.detArmed = false ∧ s.power.pg = 0 ∧
      s.power.stoppedAt + 1600000 ≤ s.now then
    let idle : Prop := t.power = { s.power with detArmed := true } ∧ KeepsAllBut [.rails, .sns] s t
    match w with
    | none => t = { s with power := { s.power with detArmed := true } }
    | some w =>
      if s.power.retryAt.isSome = true ∨ s.power.held = true then
        if w = .tone ∧ s.wakeEnabled .tone = true then Wakes s t .tone else idle
      else
        match countsAs s w with
        | some x => Wakes s t x
        | none => idle
  else t = s

/-- The highest group raised, while an attempt runs (R344). -/
abbrev WakingAt (s : State) (n : Nat) : Prop := s.dev.base = .stop ∧ s.power.waking = true ∧ s.power.group = n

/-- The highest group's power is good (R344). -/
def pgAsserted : Prop := ∀ (n : Fin 4) s, Answers (.pgAsserted n) s fun t =>
  if s.dev.base = .stop ∧ s.power.waking = true ∧ s.power.group = n.val ∧ bit s.power.pg n.val = false then
    t = { s with power := { s.power with pg := setBit s.power.pg n.val true, pgAt := some s.now } }
  else t = s

/-- The next group is raised 100 us after power good (R344). -/
def powerGroupEnable : Prop := ∀ s, Answers .powerGroupEnable s fun t =>
  if s.dev.base = .stop ∧ s.power.waking = true ∧ s.power.group < 3 ∧ (∃ x ∈ s.power.pgAt, x + 160000 ≤ s.now) then
    t = { s with power := { s.power with
      pwrEn := setBit s.power.pwrEn (s.power.group + 1) true, raisedAt := s.now, pgAt := none } }
  else t = s

/-- BOOT begins: the slot that the boot record names runs where it verifies and its SVN is not below the counter, else the other
with FALLBACK, else the device stays in recovery; the watchdog starts (R312, R321, R322). -/
def Boots (s t : State) : Prop :=
  let b := s.bh.nextB
  t.dev.base = .boot ∧ t.power.booting = true ∧ t.bh.core.wdAt = s.now ∧
  if s.slotBoots b = true then t.bh.slotB = b ∧ t.bh.fallback = s.bh.fallback ∧ t.bh.recovery = s.bh.recovery
  else if s.slotBoots (!b) = true then t.bh.slotB = !b ∧ t.bh.fallback = true ∧ t.bh.nextB = b ∧ t.bh.recovery = s.bh.recovery
  else t.bh.recovery = true ∧ t.bh.slotB = s.bh.slotB

/-- BOOT begins when the PLL locks (R344). -/
def pllLocked : Prop := ∀ s, Answers .pllLocked s fun t =>
  if s.dev.base = .stop ∧ s.power.waking = true ∧ bit s.power.pg 3 = true then
    Boots s t ∧ t.power.waking = false
  else t = s

/-- Boot ends in DOCK, or in SAFE where that is pending, and READY is set; not in recovery, nor before enumeration and its first
survey have ended, on any device. In DOCK the rollback counter has followed the firmware, unless debug is UNLOCKED, FAULT_N is
driven no longer, and a wake that had failed is an event of source 74 (R247, R270, R298, R322, R331, R335, R340, R344, R345). -/
def bootComplete : Prop := ∀ s, Powered s →
  let svn := s.slotSvn s.bh.slotB
  Answers .bootComplete s fun t =>
    if s.dev.base = .boot ∧ s.power.booting = true ∧ s.bh.recovery = false ∧ s.ez.enumBusy = false ∧
        s.ez.enumDone = true then
      t.dev.ready = true ∧ t.power.booting = false ∧ t.power.waking = false ∧ t.dev.safePend = false ∧
      if s.dev.safePend = true then t.dev.base = .safe
      else
        t.dev.base = .dock ∧ t.power.faultDrive = false ∧ t.power.wakeFailed = false ∧
        t.bh.svn = (if s.bh.svn.toNat < svn.toNat ∧ s.bh.unlocked = false then svn else s.bh.svn) ∧
        (s.power.wakeFailed = true → Reported s t 74 s.power.cause)
    else t = s

/-- A failed attempt drops every group and drives FAULT_N; after the third the device is held, before it a retry follows 100 ms
later (R345, R352). -/
def WakeFailed (s t : State) (kind : Nat) (group : Nat) : Prop :=
  t.power.pwrEn = 0 ∧ t.power.falling = s.power.pwrEn ∧ t.power.fallAt = s.now ∧ t.power.waking = false ∧
  t.power.faultDrive = true ∧ t.power.wakeFailed = true ∧ bit t.power.cause 5 = true ∧ fldN t.power.cause 16 2 = kind ∧
  fldN t.power.cause 18 2 = group ∧ t.power.held = decide (3 ≤ s.power.attempts) ∧
  t.power.retryAt = (if 3 ≤ s.power.attempts then none else some (s.now + 160000000)) ∧
  KeepsAllBut [.aonCfg, .stopTimer, .wakeFailure, .rails] s t

/-- A group whose power is not good 10 ms after it was raised fails the attempt (R345). -/
def pgTimeout : Prop := ∀ s, Answers .pgTimeout s fun t =>
  if s.dev.base = .stop ∧ s.power.waking = true ∧ s.power.pgAt = none ∧ s.power.raisedAt + 16000000 ≤ s.now then
    WakeFailed s t 1 (s.power.group % 4)
  else t = s

/-- A PLL that does not lock within 2 ms of the last power good fails the attempt (R345). -/
def pllLockTimeout : Prop := ∀ s, Answers .pllLockTimeout s fun t =>
  if s.dev.base = .stop ∧ s.power.waking = true ∧ bit s.power.pg 3 = true ∧ (∃ x ∈ s.power.pgAt, x + 3200000 ≤ s.now) then
    WakeFailed s t 2 (fldN s.power.cause 18 2)
  else t = s

/-- A retry raises group 0 and is counted (R345, R352). -/
def wakeRetry : Prop := ∀ s, Answers .wakeRetry s fun t =>
  if s.dev.base = .stop ∧ s.power.vaon = true ∧ (∃ x ∈ s.power.retryAt, x ≤ s.now) then
    t.power.waking = true ∧ t.power.pwrEn = 1 ∧ t.power.falling = 0 ∧ t.power.raisedAt = s.now ∧ t.power.pgAt = none ∧
    t.power.retryAt = none ∧ t.power.held = false ∧ t.power.attempts = s.power.attempts + 1 ∧
    fldN t.power.cause 20 2 = s.power.attempts % 4 ∧ KeepsAllBut [.aonCfg, .rails] s t
  else t = s

/-- In Stop the working state is lost; rail-sense, the wake enables and the stored policy stay (R315, R339, R341, R347). -/
def Stopped (s t : State) : Prop :=
  t.dev.base = .stop ∧ t.dev.ready = false ∧ t.power.pwrEn = 0 ∧ t.power.pg = 0 ∧ t.power.stoppedAt = s.now ∧
  t.host.inflight = [] ∧ t.host.qps = [] ∧ t.engines = [] ∧ t.regions = [] ∧ t.sns = s.sns ∧ t.rs = s.rs ∧
  t.power.wakeEn = s.power.wakeEn ∧ t.bh.unlocked = false ∧ t.pending = s.pending ∧ t.now = s.now ∧
  (PolicyStored s → t.bh.policy = s.bh.policy)

/-- Stop follows MODE_SET STOP 1 ms after its completion: the groups fall, the highest first (R339, R352). -/
def stopEntry : Prop := ∀ s, Powered s → Answers .stopEntry s fun t =>
  if ∃ x ∈ s.power.stopAt, x ≤ s.now then
    Stopped s t ∧ bit t.power.cause 7 = true ∧ t.power.falling = s.power.pwrEn ∧ t.power.fallAt = s.now
  else t = s

/-- A group's power fails (R340): every group falls at once, FAULT_N is driven and the group recorded. -/
def pgLoss : Prop := ∀ (n : Fin 4) s, Powered s → Answers (.pgLoss n) s fun t => Stopped s t ∧
  t.power.faultDrive = true ∧ bit t.power.cause 6 = true ∧ fldN t.power.cause 18 2 = n.val ∧ t.power.falling = 0

/-- The always-on supply fails: nothing is driven, and nothing is saved (R362). -/
def vaonLoss : Prop := ∀ s, Answers .vaonLoss s fun t => Stopped s t ∧ t.power.vaon = false ∧ t.power.faultDrive = false ∧
  t.power.falling = 0 ∧ t.bh.flash = s.bh.flash ∧ t.bh.logPtr = s.bh.logPtr

/-- Power-on reset: the always-on registers are at reset, each comparator output within the band of its threshold is UNSETTLED, and
the wake sequence runs (R344, R346, R349, R352).
The model's choice, no rule of the spec, where the spec leaves open: log entry 93. -/
def powerOnReset : Prop := ∀ l s, Answers (.powerOnReset l) s fun t =>
  t.dev.base = .stop ∧ t.power.waking = true ∧ t.power.pwrEn = 1 ∧ t.power.raisedAt = s.now ∧ t.power.attempts = 1 ∧
  t.power.wakeEn = PowerSt.reset.wakeEn ∧ t.power.vaon = PowerSt.reset.vaon ∧ t.rs = RsSt.reset ∧
  (∀ p < 4, bit PowerSt.reset.wakeEn (20 + p) = true → Out.tone (p + 1) ∈ t.out) ∧
  fldN t.power.cause 20 2 = 0 ∧ t.host.inflight = [] ∧ t.engines = [] ∧
  ∀ n < 8, (t.sn n).uv = (l : List Nat).getD n 0 ∧ (t.sn n).thr = Sns.reset.thr ∧ (t.sn n).cfg = Sns.reset.cfg ∧
    (t.sn n).evt = 0 ∧
    ((l.getD n 0 ≤ snsUv (Sns.reset.hiCode) + snsHalf ∧ snsUv (Sns.reset.hiCode) ≤ l.getD n 0 + snsHalf) ↔
      (t.sn n).hi = .unsettled) ∧
    ((l.getD n 0 ≤ snsUv (Sns.reset.loCode) + snsHalf ∧ snsUv (Sns.reset.loCode) ≤ l.getD n 0 + snsHalf) ↔
      (t.sn n).lo = .unsettled)

/-- RESET_N holds the device in reset; the stored policy stays (R315, R346, R352). -/
def resetN : Prop := ∀ s, Powered s → Answers .resetN s fun t =>
  t.dev.base = .boot ∧ t.dev.ready = false ∧ t.power.booting = false ∧ fldN t.power.cause 0 4 = 2 ∧ t.engines = [] ∧
  t.regions = [] ∧ t.host.inflight = [] ∧ t.host.qps = [] ∧ t.pending = s.pending ∧
  (PolicyStored s → t.bh.policy = s.bh.policy)

/-- BOOT starts when RESET_N is released (R346). -/
def resetNRelease : Prop := ∀ s, Powered s → Answers .resetNRelease s fun t =>
  if s.dev.base = .boot ∧ s.power.booting = false then Boots s t else t = s

/-- The single events of R298's table: the root PLL's loss of lock while REFCLK is present, an uncorrectable PCIe error, which the
root alone has, and which AER keeps and reports as fatal or non-fatal (log entry 135), and an error of the interface between the
dies (R266, R298). -/
def rootPllLockLoss : Prop := ∀ s, Powered s → Answers .rootPllLockLoss s fun t =>
  if s.ref.present = true then Reported s t 70 0 else t = s

def pcieUncorrectableError : Prop := ∀ aer s, Powered s → Answers (.pcieUncorrectableError aer) s fun t =>
  if s.isTop = true then
    Reported s t 47 aer ∧ t.host.pci.aer = s.host.pci.aer ||| aer ∧
    (aer &&& pcieFatal ≠ 0 → Out.aerMessage true ∈ t.out) ∧ (aer &&& ~~~pcieFatal ≠ 0 → Out.aerMessage false ∈ t.out)
  else t = s

def dieToDieInterfaceError : Prop := ∀ (die : Fin 2) lanes s, Powered s →
  Answers (.dieToDieInterfaceError die lanes) s fun t => Reported s t (76 + die.val) (lanes.setWidth 32)

/-- An output trips half the hysteresis of 20 mV above its threshold and falls half of it below; between, it stays (R33, R347). -/
def tripped (o : SnsOut) (code uv : Nat) : SnsOut :=
  if 750 * code + 10000 < uv then .high else if uv + 10000 < 750 * code then .low else o

/-- The comparator has judged uv, and latched those of its events that RS_SNSn_CFG selects: bits 0 and 1 are the upper output's rise
and fall, 2 and 3 the lower's. In Run an event selected for the interrupt sends the vector; in Stop one selected for wake wakes
(R342, R347, R348). -/
def Judged (s t : State) (n uv : Nat) (thr : Word32) : Prop :=
  let r := s.sn n
  let hi := tripped r.hi (fldN thr 16 12) uv
  let lo := tripped r.lo (fldN thr 0 12) uv
  let ev (k : Nat) : Bool :=
    (decide (k = 0 ∧ r.hi = .low ∧ hi = .high) || decide (k = 1 ∧ r.hi = .high ∧ hi = .low)) ||
    (decide (k = 2 ∧ r.lo = .low ∧ lo = .high) || decide (k = 3 ∧ r.lo = .high ∧ lo = .low))
  (t.sn n).uv = uv ∧ (t.sn n).thr = thr ∧ (t.sn n).hi = hi ∧ (t.sn n).lo = lo ∧ (t.sn n).cfg = r.cfg ∧
  (∀ k < 4, bit (t.sn n).evt k = (bit r.evt k || (ev k && (bit r.cfg k || bit r.cfg (4 + k))))) ∧
  (s.dev.base ≠ .stop → (∃ k < 4, ev k = true ∧ bit r.cfg k = true) → bit s.rs.irq 8 = true →
    Signals s t (fld s.rs.irq 0 8)) ∧
  (s.dev.base = .stop → ¬InSeries s → s.power.detArmed = true → bit s.power.wakeEn 3 = true →
    ∀ k, k < 4 → ev k = true → bit r.cfg (4 + k) = true →
      t.power.waking = true ∧ t.power.pwrEn = 1 ∧ fldN t.power.cause 8 3 = 4 ∧ fldN t.power.cause 12 3 = n)

/-- An input moves (R347, R348); without the always-on supply nothing judges it.
The model's choice, no rule of the spec, where the spec leaves open: log entry 60. -/
def railSenseEvent : Prop := ∀ (n : Fin 8) uv s, Answers (.railSenseEvent n uv) s fun t =>
  if s.power.vaon = true then Judged s t n.val uv (s.sn n.val).thr else t = s

/-- An input beyond a trip point settles the output, without an event (R349). -/
def unsettledOutputSettles : Prop := ∀ (n : Fin 8) uv s, Answers (.unsettledOutputSettles n uv) s fun t =>
  if s.power.vaon = true then Judged s t n.val uv (s.sn n.val).thr else t = s

/-- A pair of thresholds in order is taken, and its input judged by it; one out of order or above 4,000 is refused (R347, R348). -/
def rsSnsThrWrite : Prop := ∀ (n : Fin 8) (v : Word32) s, HostUp s → Answers (.rsSnsThrWrite n v) s fun t =>
  if fldN v 0 12 ≤ fldN v 16 12 ∧ fldN v 16 12 ≤ 4000 then Judged s t n.val (s.sn n.val).uv (v &&& 0x0FFF0FFF)
  else t = { s with rs := { s.rs with refused := true } }

/-- A check of the comparators of the mask begins (R349, R351).
The model's choice, no rule of the spec, where the spec leaves open: log entry 94. -/
def rsCheck : Prop := ∀ (v : Word32) s, HostUp s → Answers (.rsCheck v) s fun t =>
  t = { s with rs := { s.rs with check := s.rs.check ||| fld v 0 8 } }

/-- A forced check settles each UNSETTLED output of the comparators asked for by what was measured, without an event, and leaves the
others (R349). -/
def rsCheckDone : Prop := ∀ (uv : List Nat) s, Powered s → Answers (.rsCheckDone uv) s fun t =>
  t.rs = { s.rs with check := 0 } ∧
  ∀ n < 8,
    let r := s.sn n
    let v := uv.getD n r.uv
    t.sn n = if bit s.rs.check n = false then r else { r with
      hi := if r.hi = .unsettled then (if 750 * r.hiCode ≤ v then .high else .low) else r.hi
      lo := if r.lo = .unsettled then (if 750 * r.loCode ≤ v then .high else .low) else r.lo }

/-- A threshold DAC that reads back more than 8 mV from its code is an error of its comparator and an event of source 75; of
several, the last is the source's last word (R298, R350). -/
def rsReadback : Prop := ∀ (uv : List Nat) s, Powered s →
  let off (j : Nat) : Bool := (uv[j]?).any fun v =>
    let x := 750 * (if j % 2 = 0 then (s.sn (j / 2)).loCode else (s.sn (j / 2)).hiCode)
    decide (8000 < max v x - min v x)
  Answers (.rsReadback uv) s fun t =>
    (∀ n < 8, t.sn n = { s.sn n with rbErr := (s.sn n).rbErr || off (2 * n) || off (2 * n + 1) }) ∧
    ((∀ j < 16, off j = false) → t = s) ∧
    ∀ j < 16, off j = true → (∀ i < 16, j < i → off i = false) →
      Reported s t 75 (placeN 32 0 (j / 2) ||| placeB 32 3 (decide (j % 2 = 1)))

end Sys2Proof.Machine.Completes

section
open Sys2Proof Sys2Proof.Machine

/-- Level commits, LEVEL_WRITE and the lane ADC complete with their results: each of these commands, wherever its hypotheses on
the state and operands hold, answers the next state its definition above describes.
Where the spec leaves a point open the clauses hold the model's choice, no rule of the spec: a reserved MUX is judged before a
busy acquisition unit (log entry 10); SEL[15:13] completes BAD_COMMAND (log entry 51); a change of path or PMU_CTRL alone sets
BUSY (log entry 110). -/
def Obligations.LevelCommandsComplete : Prop :=
  Completes.lnLvlCommit ∧ Completes.levelWrite ∧ Completes.dacSettled ∧ Completes.adcStart ∧
  Completes.adcMeasurementDone

/-- Comparator, overcurrent, clamp and PMU events take their effect: each of these commands, wherever its hypotheses on the
state and operands hold, answers the next state its definition above describes.
Where the spec leaves a point open the clauses hold the model's choice, no rule of the spec: a window source's fire carries
source number 0, and CURRENT_LIMIT clears with OC (log entry 18); a voltage at a threshold is neither above nor below it (log
entry 60); inside the band of equal thresholds the last state is kept (log entry 109). -/
def Obligations.FrontEndEventsComplete : Prop :=
  Completes.comparatorEdge ∧ Completes.driverOvercurrent ∧ Completes.pmuOvercurrent ∧
  Completes.clampEvent ∧ Completes.lnEvtStatusClear ∧ Completes.pmuCompliance

/-- Timing-set writes and activity registers complete: each of these commands, wherever its hypotheses on the state and operands
hold, answers the next state its definition above describes.
Where the spec leaves a point open the clauses hold the model's choice, no rule of the spec: a crew formed from an empty one may
differ in PERIOD and MUX (log entry 116). -/
def Obligations.TimingCommandsComplete : Prop :=
  Completes.tsetWrite ∧ Completes.tsetTakesEffect ∧ Completes.activityWindowEnd ∧
  Completes.lnActCtrlWrite ∧ Completes.lnTsrSelWrite ∧ Completes.lnTapSelWrite

/-- Control, APG and symbol entries of a link take their effect: each of these commands, wherever its hypotheses on the state
and operands hold, answers the next state its definition above describes.
Where the spec leaves a point open the clauses hold the model's choice, no rule of the spec: HALT and JIF are the late
conditions of a link (log entry 73); only the address is judged before ENTRY_ECC (log entry 112). -/
def Obligations.LinkEntriesComplete : Prop :=
  Completes.nop ∧ Completes.halt ∧ Completes.jmp ∧ Completes.jif ∧ Completes.call ∧ Completes.ret ∧
  Completes.loop ∧ Completes.endl ∧ Completes.apgld ∧ Completes.ldc ∧ Completes.sym

/-- Flag, trigger, capture and mark entries join their link, and the applied link has their effect: each of these commands,
wherever its hypotheses on the state and operands hold, answers the next state its definition above describes.
Where the spec leaves a point open the clauses hold the model's choice, no rule of the spec: HALT and JIF are the late
conditions of a link (log entry 73); only the address is judged before ENTRY_ECC (log entry 112); START and FIRST_CYCLE of a RAW
window that plays no row (log entry 152). -/
def Obligations.LinkEffectsComplete : Prop :=
  Completes.setf ∧ Completes.clrf ∧ Completes.arm ∧ Completes.fire ∧ Completes.capt ∧ Completes.mark

/-- The PLAY-class entries begin to play: each of these commands, wherever its hypotheses on the state and operands hold,
answers the next state its definition above describes.
Where the spec leaves a point open the clauses hold the model's choice, no rule of the spec: HALT and JIF are the late
conditions of a link (log entry 73); only the address is judged before ENTRY_ECC (log entry 112). -/
def Obligations.PlayEntriesComplete : Prop :=
  Completes.play ∧ Completes.playn ∧ Completes.idle ∧ Completes.matchEntry ∧ Completes.waitEntry ∧
  Completes.barEntry ∧ Completes.apgrun

/-- Launch, decision, hold, resume, reset and fault of an engine: each of these commands, wherever its hypotheses on the state
and operands hold, answers the next state its definition above describes.
Where the spec leaves a point open the clauses hold the model's choice, no rule of the spec: a resumed engine under a device
hold request is held again (log entry 30); RESULT0 of a heat that SAFE ends (log entry 58); the address that COUPLED_PEER
records is that of the entry in play (log entry 114); where a member faults after a peer's reset, SAFE entry or FETCH fault (log
entry 136); the operand ecc, which names an entry that cannot be read (log entry 137). -/
def Obligations.EngineEventsComplete : Prop :=
  Completes.decisionPoint ∧ Completes.matchIterationsExhausted ∧ Completes.waitBarTimeout ∧
  Completes.coupledPeerFault ∧ Completes.coxCtrlReset ∧ Completes.heatLaunch ∧ Completes.holdTakesEffect ∧
  Completes.heatResumeTick

/-- Flags and engine registers take their writes: each of these commands, wherever its hypotheses on the state and operands
hold, answers the next state its definition above describes.
Where the spec leaves a point open the clauses hold the model's choice, no rule of the spec: a reserved code written while
RUNNING or HELD sets IGNORED alone (log entry 125). -/
def Obligations.FlagAndEngineRegistersComplete : Prop :=
  Completes.deviceFlagApply ∧ Completes.regattaFlagApply ∧ Completes.coxDflagsSet ∧
  Completes.coxDflagsClr ∧ Completes.coxRflagsSet ∧ Completes.coxRflagsClr ∧ Completes.coxTblSelWrite ∧
  Completes.coxCfgWrite ∧ Completes.coxBindWrite ∧ Completes.patternConfigWrite

/-- Tester cycles place edges, judge strobes and capture; granule boundaries and segment fetches take their effect: each of
these commands, wherever its hypotheses on the state and operands hold, answers the next state its definition above
describes.
Where the spec leaves a point open the clauses hold the model's choice, no rule of the spec: a cycle without a strobe stands at
its start (log entry 32); which of the region's channels a fetch error names (log entry 68); off to a level and a level to off
count as transitions (log entry 115); the lowest channel times a crew of unequal timing sets (log entry 116); an action that
drives the level present is no drive edge (log entry 138); a cycle is played at its end with the settings then in force (log
entry 139). -/
def Obligations.CyclesComplete : Prop :=
  Completes.testerCycle ∧ Completes.granuleBoundary ∧ Completes.segmentFetch

/-- Table, microprogram and vector data are written: each of these commands, wherever its hypotheses on the state and operands
hold, answers the next state its definition above describes. -/
def Obligations.TablesComplete : Prop :=
  Completes.tableLoad ∧ Completes.tablePatch ∧ Completes.segmentWrite

/-- Region commands and BAR2 accesses complete with their results: each of these commands, wherever its hypotheses on the state
and operands hold, answers the next state its definition above describes.
Where the spec leaves a point open the clauses hold the model's choice, no rule of the spec: which handle index and BAR2 slot
are assigned (log entry 11); the order of the refusals (log entry 72). -/
def Obligations.RegionsComplete : Prop :=
  Completes.regionAlloc ∧ Completes.regionFree ∧ Completes.regionZeroingDone ∧ Completes.regionRead ∧
  Completes.regionWrite ∧ Completes.bar2Read ∧ Completes.bar2Write

/-- Heat commands are admitted and complete: each of these commands, wherever its hypotheses on the state and operands hold,
answers the next state its definition above describes.
Where the spec leaves a point open the clauses hold the model's choice, no rule of the spec: a resumed engine under a device
hold request is held again (log entry 30); a second HEAT_RESUME completes BAD_COMMAND (log entry 35); a missing reference
refuses at step 1 (log entry 66); how the lead of a coupled crew asks the members (log entry 117); windows of one completion
drain by rising binding index (log entry 140); the lead completes with the worst status and tells the members (log entry 141). -/
def Obligations.HeatsComplete : Prop :=
  Completes.heatStart ∧ Completes.heatAdmission ∧ Completes.heatCompletion ∧ Completes.heatHold ∧
  Completes.heatResume

/-- Captured data lands and windows drain: each of these commands, wherever its hypotheses on the state and operands hold,
answers the next state its definition above describes.
Where the spec leaves a point open the clauses hold the model's choice, no rule of the spec: which handle index is assigned (log
entry 11); a descriptor is in use while an engine with a heat captures BITMAP with it (log entry 36); a presence map is stored
in whole blocks (log entry 37); the order of an object's blocks (log entry 120); what a drain without an object had written is
not counted (log entry 150). -/
def Obligations.CaptureAndDrainComplete : Prop :=
  Completes.captureWriteLanded ∧ Completes.rawWindowEnd ∧ Completes.fcCntClr ∧ Completes.fcDrainReq ∧
  Completes.fcGeomWrite ∧ Completes.drainStart ∧ Completes.drainDone

/-- Fail Store commands complete and drives are tracked: each of these commands, wherever its hypotheses on the state and
operands hold, answers the next state its definition above describes.
Where the spec leaves a point open the clauses hold the model's choice, no rule of the spec: which handle index is assigned (log
entry 11); a presence map is stored in whole blocks (log entry 37); the window kind in a merge's event is free (log entry 70);
the order of an object's blocks (log entry 120); the header of a merged object (log entry 121); FC_NVk_CAP of a drive that is
offline (log entry 150); a merge goes on when a drive fails (log entry 151). -/
def Obligations.FailStoreComplete : Prop :=
  Completes.failstoreRead ∧ Completes.failstoreMerge ∧ Completes.mergeDone ∧ Completes.failstoreFree ∧
  Completes.nvmeDriveError ∧ Completes.nvmePortOnline

/-- TIM units are set up, measure and give their results: each of these commands, wherever its hypotheses on the state and
operands hold, answers the next state its definition above describes. -/
def Obligations.TimUnitsComplete : Prop :=
  Completes.timSetup ∧ Completes.timArm ∧ Completes.timDisarm ∧ Completes.timConfigWrite ∧
  Completes.timGateChange ∧ Completes.timStartEdge ∧ Completes.timStopEdge ∧ Completes.timTimeout ∧
  Completes.timDeadTimeEnd ∧ Completes.timResStatRead

/-- The reference is lost and returns, and trigger groups arm, fire and re-arm: each of these commands, wherever its hypotheses
on the state and operands hold, answers the next state its definition above describes.
Where the spec leaves a point open the clauses hold the model's choice, no rule of the spec: who sends an ARM by TRG_GRPg_CTRL
(log entry 15); the last edge lies 64 to 72 ticks before the declaration (log entry 69). -/
def Obligations.ReferenceAndTriggersComplete : Prop :=
  Completes.refclkLost ∧ Completes.refclkReturning ∧ Completes.refclkReturnRecognised ∧
  Completes.pllRelocked ∧ Completes.trgGrpArm ∧ Completes.trgGrpDisarm ∧ Completes.trgGrpCfgWrite ∧
  Completes.trigInEdge ∧ Completes.fireCommit ∧ Completes.rearmInstantKnown ∧ Completes.trigOutPulse ∧
  Completes.trigOutPulseEnd ∧ Completes.trgOutCfgWrite

/-- Acquisition units record and the Log moves its packets: each of these commands, wherever its hypotheses on the state and
operands hold, answers the next state its definition above describes.
Where the spec leaves a point open the clauses hold the model's choice, no rule of the spec: an image that R216 refuses is
judged after the region and before SURVEY, the claim and IDLE, and what an unclaimed unit and one not IDLE complete with (log
entry 17). -/
def Obligations.AcquisitionAndLogComplete : Prop :=
  Completes.acqSetup ∧ Completes.acqArm ∧ Completes.acqStart ∧ Completes.acqStop ∧ Completes.acqAdcFree ∧
  Completes.acqSample ∧ Completes.acqPostComplete ∧ Completes.logPacketEnter ∧ Completes.logIntakeToBank ∧
  Completes.logBankSwap ∧ Completes.logSwapTimeout ∧ Completes.logRead ∧ Completes.logLostPktsRead ∧
  Completes.logLostWordsRead

/-- Calibration rounds, handovers, slots and Survey results take their effect: each of these commands, wherever its hypotheses
on the state and operands hold, answers the next state its definition above describes.
Where the spec leaves a point open the clauses hold the model's choice, no rule of the spec: the items of a round on a lane
whose spare is SPARED (log entry 38); when tap tables are interpolated (log entry 40); Survey measures in place (log entry 41);
a Survey run in a reference-loss span goes without its round (log entry 153). -/
def Obligations.CalibrationComplete : Prop :=
  Completes.laneTempRead ∧ Completes.interpolatedTableInstall ∧ Completes.calItemStart ∧
  Completes.handoverShadowStart ∧ Completes.handoverSwitch ∧ Completes.vernierMeasurementDone ∧
  Completes.slotFlashSave ∧ Completes.calRequest ∧ Completes.calReq ∧ Completes.calDtWrite ∧
  Completes.surveyRunEnd

/-- Erzal links and received event flits take their effect: each of these commands, wherever its hypotheses on the state and
operands hold, answers the next state its definition above describes.
Where the spec leaves a point open the clauses hold the model's choice, no rule of the spec: what a SUMMARY carries (log entry
28); what a link that goes down loses (log entry 42); EZ_STROKE on each device (log entry 43); what a BAR event says (log entry
113); the payload of a flit stands for its bits (log entry 127); the parent sends a link's result to its child (log entry 142);
each device tells of the couplings its engines join (log entry 148). -/
def Obligations.LinkFlitsComplete : Prop :=
  Completes.ezDataFlit ∧ Completes.ezReplayTimeout ∧ Completes.ezLinkDown ∧ Completes.ezLinkTrained ∧
  Completes.ezEvtFire ∧ Completes.ezEvtArm ∧ Completes.ezEvtDone ∧ Completes.ezEvtRflag ∧
  Completes.ezEvtCrew ∧ Completes.ezEvtHold ∧ Completes.ezEvtRole ∧ Completes.ezEvtTt ∧
  Completes.ezEvtLink ∧ Completes.ezEvtReservedType ∧ Completes.ezOrderedEventApply

/-- Enumeration, skew survey, roles, frames, CATCH and stroke take their effect: each of these commands, wherever its hypotheses
on the state and operands hold, answers the next state its definition above describes.
Where the spec leaves a point open the clauses hold the model's choice, no rule of the spec: EZ_STROKE on each device and the
renumbering of frames (log entry 43); the first CATCH_IN in BOOT sets the raw grid (log entry 77); the check word of a stroke
generation (log entry 127); an exchange is lost after 7,000 ticks (log entry 129); which frame boundary a frame load names (log
entry 130); REF from fewer than 16 arrivals, and its rounding (log entry 131); a write of EZ_ROLE while a request is pending
(log entry 132); where the answer to a DIRECTION request goes (log entry 144). -/
def Obligations.RegattaComplete : Prop :=
  Completes.ezCtrlEnum ∧ Completes.ezCtrlSurvey ∧ Completes.ezCtrlTakeover ∧ Completes.enumerationDone ∧
  Completes.skewSurveyDone ∧ Completes.skewSlewStep ∧ Completes.ezRoleGo ∧ Completes.roleRequestTimeout ∧
  Completes.frameStart ∧ Completes.catchInPulse ∧ Completes.catchMiss ∧ Completes.strokeGeneration ∧
  Completes.generationTimeout ∧ Completes.ezStrokeWrite

/-- Easy-All is raised, received, ignored after a clear, and cleared: each of these commands, wherever its hypotheses on the
state and operands hold, answers the next state its definition above describes.
Where the spec leaves a point open the clauses hold the model's choice, no rule of the spec: a clear travels as an EASYALL flit
of raiser kind 7 (log entry 44). -/
def Obligations.EasyAllComplete : Prop :=
  Completes.ezEvtEasyall ∧ Completes.orphan ∧ Completes.easyallRaise ∧ Completes.easyallClear ∧
  Completes.easyallNLow ∧ Completes.easyallIgnoreEnd

/-- Crew maps, claims, locks, barriers and aborts complete: each of these commands, wherever its hypotheses on the state and
operands hold, answers the next state its definition above describes.
Where the spec leaves a point open the clauses hold the model's choice, no rule of the spec: ABORT of a heat that has faulted
completes TARGET_DONE (log entry 46); which waiter gets a freed lock (log entry 78); a crew formed from an empty one copies
nothing (log entry 116); which transfers an ABORT can stop (log entry 122). -/
def Obligations.OwnershipComplete : Prop :=
  Completes.crewMap ∧ Completes.claim ∧ Completes.release ∧ Completes.lock ∧ Completes.lockGrant ∧
  Completes.lockTimeout ∧ Completes.unlock ∧ Completes.barrier ∧ Completes.abort

/-- Queue registers, fetch, start, commit and context reset take their effect: each of these commands, wherever its hypotheses
on the state and operands hold, answers the next state its definition above describes.
Where the spec leaves a point open the clauses hold the model's choice, no rule of the spec: an enabled queue starts empty at
index 0 (log entry 20); the order in which SQs are visited (log entry 53); a malformed entry and an unknown TYPE are judged at
the fetch (log entry 54); a reset context's commands on other members (log entry 82); a write of an enabled queue's registers is
ignored (log entry 83); how members learn of a context reset (log entry 98). -/
def Obligations.QueuesComplete : Prop :=
  Completes.commandFetch ∧ Completes.commandStart ∧ Completes.commandCommit ∧ Completes.hqSqTailWrite ∧
  Completes.hqCqHeadWrite ∧ Completes.hqSqCfgWrite ∧ Completes.hqCqCfgWrite ∧ Completes.hqSqRestart ∧
  Completes.hqCtxReset

/-- Global registers, resets by the host and apertures take their effect: each of these commands, wherever its hypotheses on the
state and operands hold, answers the next state its definition above describes.
Where the spec leaves a point open the clauses hold the model's choice, no rule of the spec: how the root learns that an
aperture write has been applied (log entry 80). -/
def Obligations.HostAccessComplete : Prop :=
  Completes.gblCtrlDevReset ∧ Completes.hostDeviceReset ∧ Completes.gblApSelWrite ∧
  Completes.gblLockWrite ∧ Completes.apertureRead ∧ Completes.apertureWrite ∧ Completes.registerWrite

/-- Umpire events, wire faults, windows, reactions, recovery and injection take their effect: each of these commands, wherever
its hypotheses on the state and operands hold, answers the next state its definition above describes.
Where the spec leaves a point open the clauses hold the model's choice, no rule of the spec: how long the lines of a pair stand,
and events beside a clear (log entry 21); a wire fault of an ESCALATED source sets WIRE alone (log entry 89); sources of one
tick act in rising order (log entry 90). -/
def Obligations.UmpireComplete : Prop :=
  Completes.umpireEvent ∧ Completes.wireFault ∧ Completes.umpireWindowClose ∧
  Completes.reactionTimerExpiry ∧ Completes.quietRecovery ∧ Completes.umpSrcClear ∧ Completes.umpSrcForce ∧
  Completes.umpWireInj ∧ Completes.umpSrcConfigWrite

/-- Boathouse messages are served with their responses: each of these commands, wherever its hypotheses on the state and
operands hold, answers the next state its definition above describes.
Where the spec leaves a point open the clauses hold the model's choice, no rule of the spec: the places of GET_INFO's slot
fields (log entry 22); log entries without a layout (log entry 23); types in recovery, TYPEs over MCTP, and a response longer
than RSP_LEN (log entry 24); a LIFECYCLE commit while UNLOCKED, and key kinds (log entry 25); a write of BH_MBX_CTRL while BUSY
(log entry 49); proposals in RETURNED need both signatures (log entry 85); how keys are wrapped (log entry 146); how keys and
signatures are laid out, and a key that is no point of the curve (log entry 154). -/
def Obligations.BoathouseMessagesComplete : Prop :=
  Completes.getInfo ∧ Completes.readSensors ∧ Completes.readLog ∧ Completes.updateErase ∧
  Completes.updateWrite ∧ Completes.updateVerify ∧ Completes.updateActivate ∧ Completes.propose ∧
  Completes.sign ∧ Completes.commit ∧ Completes.cancel ∧ Completes.getProposal ∧ Completes.debugChallenge ∧
  Completes.debugResponse ∧ Completes.debugLock ∧ Completes.setPartyKeys

/-- MCTP control, expiries, watchdog, sensors and TAP take their effect: each of these commands, wherever its hypotheses on the
state and operands hold, answers the next state its definition above describes.
Where the spec leaves a point open the clauses hold the model's choice, no rule of the spec: the bodies of MCTP control messages
and their packets (log entry 26); every reading beyond a limit is an event (log entry 27); each lane holds the causes of its
derating (log entry 95); what the core keeps and when its watchdog restarts (log entry 134); what the internal debug port does
within its scope (log entry 147). -/
def Obligations.BoathouseEventsComplete : Prop :=
  Completes.proposalExpiry ∧ Completes.debugChallengeExpiry ∧ Completes.setEndpointId ∧
  Completes.getEndpointId ∧ Completes.getMctpVersionSupport ∧ Completes.getMessageTypeSupport ∧
  Completes.getVendorDefinedMessageSupport ∧ Completes.boathouseWatchdogExpiry ∧ Completes.sensorRead ∧
  Completes.crossDieCheck ∧ Completes.tapInstructionLoad

/-- Modes change, boot ends, and every reset and loss of power takes its effect: each of these commands, wherever its hypotheses
on the state and operands hold, answers the next state its definition above describes.
Where the spec leaves a point open the clauses hold the model's choice, no rule of the spec: MODE_SET STOP from SAFE in a
DEVICE_SAFE fault (log entry 50); MODE_SET SAFE in SAFE (log entry 88); what a reset keeps (log entry 93). -/
def Obligations.ModesAndResetsComplete : Prop :=
  Completes.modeSet ∧ Completes.bootComplete ∧ Completes.stopEntry ∧ Completes.pgLoss ∧
  Completes.vaonLoss ∧ Completes.powerOnReset ∧ Completes.resetN ∧ Completes.resetNRelease

/-- Wake detection and the power groups go through the wake sequence: each of these commands, wherever its hypotheses on the
state and operands hold, answers the next state its definition above describes.
Where the spec leaves a point open the clauses hold the model's choice, no rule of the spec: wake sources within a failure
series, and a tone that follows its squelch (log entry 47). -/
def Obligations.WakeComplete : Prop :=
  Completes.wakeDetected ∧ Completes.wakeDetectorArmed ∧ Completes.pgAsserted ∧
  Completes.powerGroupEnable ∧ Completes.pllLocked ∧ Completes.pgTimeout ∧ Completes.pllLockTimeout ∧
  Completes.wakeRetry

/-- Rail-sense comparators judge, latch and are checked, and single error events are reported: each of these commands, wherever
its hypotheses on the state and operands hold, answers the next state its definition above describes.
Where the spec leaves a point open the clauses hold the model's choice, no rule of the spec: an output at its threshold stays
(log entry 60); a check touches UNSETTLED outputs only (log entry 94); the configuration state of the PCIe function (log entry
135). -/
def Obligations.RailSenseComplete : Prop :=
  Completes.railSenseEvent ∧ Completes.unsettledOutputSettles ∧ Completes.rsSnsThrWrite ∧
  Completes.rsCheck ∧ Completes.rsCheckDone ∧ Completes.rsReadback ∧ Completes.rootPllLockLoss ∧
  Completes.pcieUncorrectableError ∧ Completes.dieToDieInterfaceError

/-- What the front-end and timing commands leave unchanged: every part of the state that a command's list does not name is as it was
in whatever next state it answers. -/
def Obligations.FrontEndFrames : Prop :=
  (∀ lane v, Frame [.out, .lanes, .chans, .groups, .acqs, .ports] (.lnLvlCommit lane v)) ∧
  (∀ h lane f, Frame (cmdParts ++ ([.lanes, .chans, .groups, .acqs] : Parts)) (.levelWrite h lane f)) ∧
  (∀ lane, Frame [.lanes] (.dacSettled lane)) ∧
  (∀ lane v, Frame [.lanes] (.adcStart lane v)) ∧
  (∀ lane samples raw overRange, Frame [.lanes] (.adcMeasurementDone lane samples raw overRange)) ∧
  (∀ ch fine uv, Frame [.out, .chans, .groups, .ports] (.comparatorEdge ch fine uv)) ∧
  (∀ lane mask, Frame (umpParts ++ ([.out, .lanes, .chans, .groups, .ports] : Parts)) (.driverOvercurrent lane mask)) ∧
  (∀ lane mask, Frame (umpParts ++ ([.lanes, .chans] : Parts)) (.pmuOvercurrent lane mask)) ∧
  (∀ lane mask, Frame (umpParts ++ ([.lanes] : Parts)) (.clampEvent lane mask)) ∧
  (∀ lane v, Frame [.out, .lanes, .chans, .groups, .ports] (.lnEvtStatusClear lane v)) ∧
  (∀ h engine tset mux n period recs, Frame (cmdParts ++ ([.tsets, .engines, .calLanes] : Parts))
      (.tsetWrite h engine tset mux n period recs)) ∧
  (∀ e, Frame [.tsets, .acts, .engines, .calLanes, .hostCmds] (.tsetTakesEffect e)) ∧
  (∀ lane, Frame [.lanes, .tsets, .acts, .engines, .calLanes, .hostCmds] (.activityWindowEnd lane)) ∧
  (∀ lane v, Frame [.lanes] (.lnActCtrlWrite lane v)) ∧
  (∀ lane v, Frame [.lanes] (.lnTsrSelWrite lane v)) ∧
  (∀ lane v, Frame [.lanes] (.lnTapSelWrite lane v)) ∧
  (∀ ch limit, Frame [.chans] (.pmuCompliance ch limit))

/-- What the Cox engine commands leave unchanged: every part of the state that a command's list does not name is as it was in
whatever next state it answers. -/
def Obligations.CoxFrames : Prop :=
  (∀ e ecc, Frame linkParts (.decisionPoint e ecc)) ∧
  (∀ e, Frame linkParts (.nop e)) ∧
  (∀ e cond flg ctr imm, Frame linkParts (.halt e cond flg ctr imm)) ∧
  (∀ e seg, Frame linkParts (.play e seg)) ∧
  (∀ e imm seg, Frame linkParts (.playn e imm seg)) ∧
  (∀ e imm, Frame linkParts (.idle e imm)) ∧
  (∀ e tgt, Frame linkParts (.jmp e tgt)) ∧
  (∀ e cond flg ctr tgt, Frame linkParts (.jif e cond flg ctr tgt)) ∧
  (∀ e tgt, Frame linkParts (.call e tgt)) ∧
  (∀ e, Frame linkParts (.ret e)) ∧
  (∀ e ctr imm, Frame linkParts (.loop e ctr imm)) ∧
  (∀ e ctr, Frame linkParts (.endl e ctr)) ∧
  (∀ e cond flg ctr imm seg, Frame linkParts (.matchEntry e cond flg ctr imm seg)) ∧
  (∀ e, Frame (haltParts ++ cmdParts ++ umpParts) (.matchIterationsExhausted e)) ∧
  (∀ e cond flg ctr imm tgt, Frame linkParts (.waitEntry e cond flg ctr imm tgt)) ∧
  (∀ e ctr imm tgt, Frame linkParts (.barEntry e ctr imm tgt)) ∧
  (∀ e, Frame [.engines] (.waitBarTimeout e)) ∧
  (∀ e tgt len, Frame linkParts (.apgrun e tgt len)) ∧
  (∀ e ctr imm, Frame linkParts (.apgld e ctr imm)) ∧
  (∀ e ctr, Frame linkParts (.setf e ctr)) ∧
  (∀ e ctr, Frame linkParts (.clrf e ctr)) ∧
  (∀ e ctr, Frame linkParts (.arm e ctr)) ∧
  (∀ e ctr, Frame linkParts (.fire e ctr)) ∧
  (∀ e ctr imm bind, Frame linkParts (.capt e ctr imm bind)) ∧
  (∀ e imm, Frame linkParts (.mark e imm)) ∧
  (∀ e ctr imm, Frame linkParts (.ldc e ctr imm)) ∧
  (∀ e ctr, Frame linkParts (.sym e ctr)) ∧
  (∀ e, Frame (haltParts ++ cmdParts ++ umpParts) (.coupledPeerFault e)) ∧
  (∀ e v, Frame (haltParts ++ cmdParts ++ ([.lanes, .regions, .tims, .groups, .logFinished] : Parts)) (.coxCtrlReset e v)) ∧
  (∀ e ecc, Frame linkParts (.heatLaunch e ecc)) ∧
  (∀ e, Frame haltParts (.holdTakesEffect e)) ∧
  (∀ e, Frame (cmdParts ++ ([.modeState, .modeSeen, .acts, .engines, .skew] : Parts)) (.heatResumeTick e)) ∧
  (Frame [.flagBits, .flagPend] (.deviceFlagApply)) ∧
  (Frame [.flagBits, .flagPend] (.regattaFlagApply)) ∧
  (∀ e v, Frame [.flagPend] (.coxDflagsSet e v)) ∧
  (∀ e v, Frame [.flagPend] (.coxDflagsClr e v)) ∧
  (∀ e v, Frame [.out, .flagPend, .ports] (.coxRflagsSet e v)) ∧
  (∀ e v, Frame [.out, .flagPend, .ports] (.coxRflagsClr e v)) ∧
  (∀ e v, Frame [.engines] (.coxTblSelWrite e v)) ∧
  (∀ e v, Frame [.out, .engines, .ports] (.coxCfgWrite e v))

/-- What the pattern, capture, region, heat and Fail Store commands leave unchanged: every part of the state that a command's list
does not name is as it was in whatever next state it answers. -/
def Obligations.PatternAndCaptureFrames : Prop :=
  (∀ e, Frame (haltParts ++ cmdParts ++ umpParts ++ ([.freeCount, .lanes, .chans, .acts, .regions, .groups] : Parts))
      (.testerCycle e)) ∧
  (∀ e, Frame (haltParts ++ cmdParts ++ umpParts ++ ([.acts] : Parts)) (.granuleBoundary e)) ∧
  (∀ e bind gran ue, Frame (umpParts ++ ([.freeCount, .engines, .regions] : Parts)) (.segmentFetch e bind gran ue)) ∧
  (∀ e b v, Frame [.engines] (.coxBindWrite e b v)) ∧
  (∀ e r v, Frame [.engines] (.patternConfigWrite e r v)) ∧
  (∀ h engine space first count data, Frame (cmdParts ++ ([.engines] : Parts)) (.tableLoad h engine space first count data)) ∧
  (∀ h engine space first count data, Frame (cmdParts ++ ([.engines] : Parts)) (.tablePatch h engine space first count data)) ∧
  (∀ h handle first count data, Frame (cmdParts ++ ([.engines, .regions] : Parts)) (.segmentWrite h handle first count data)) ∧
  (∀ h kind map m size mask, Frame (cmdParts ++ ([.freeCount, .regions, .sharedFree] : Parts))
      (.regionAlloc h kind map m size mask)) ∧
  (∀ h handle, Frame (cmdParts ++ umpParts ++ ([.regions, .drainState, .sharedFree] : Parts)) (.regionFree h handle)) ∧
  (∀ handle, Frame [.drainState] (.regionZeroingDone handle)) ∧
  (∀ h handle offset length, Frame cmdParts (.regionRead h handle offset length)) ∧
  (∀ h handle offset length data, Frame (cmdParts ++ ([.regions] : Parts)) (.regionWrite h handle offset length data)) ∧
  (∀ h engine start decl, Frame (cmdParts ++ ([.lanes, .chans, .engines, .regions] : Parts)) (.heatStart h engine start decl)) ∧
  (∀ e, Frame (cmdParts ++ ([.lanes, .chans, .engines, .regions] : Parts)) (.heatAdmission e)) ∧
  (∀ e, Frame (cmdParts ++ ([.lanes, .engines, .regions, .drainState] : Parts)) (.heatCompletion e)) ∧
  (∀ e ue hbm, Frame (umpParts ++ ([.freeCount, .regions, .captureQueue, .hbmUe] : Parts)) (.captureWriteLanded e ue hbm)) ∧
  (∀ e, Frame [.engines, .captureQueue] (.rawWindowEnd e)) ∧
  (∀ v, Frame [.chans] (.fcCntClr v)) ∧
  (∀ v, Frame [.regions, .fcErrors, .drainState] (.fcDrainReq v)) ∧
  (∀ g r v, Frame [.fcErrors, .geoms] (.fcGeomWrite g r v)) ∧
  (Frame (umpParts ++ ([.freeCount, .regions, .objs, .drainState] : Parts)) (.drainStart)) ∧
  (Frame (umpParts ++ ([.out, .regions, .objs, .drainState] : Parts)) (.drainDone)) ∧
  (∀ h handle offset length bad, Frame (cmdParts ++ ([.freeCount] : Parts)) (.failstoreRead h handle offset length bad)) ∧
  (∀ h n handles, Frame (cmdParts ++ umpParts ++ ([.freeCount, .objs, .drainState] : Parts)) (.failstoreMerge h n handles)) ∧
  (∀ bad, Frame (umpParts ++ ([.freeCount, .out, .objs, .drainState, .hostCmds] : Parts)) (.mergeDone bad)) ∧
  (∀ h handle, Frame (cmdParts ++ umpParts ++ ([.freeCount, .regions, .objs, .drainState] : Parts)) (.failstoreFree h handle)) ∧
  (∀ k status offline, Frame (umpParts ++ ([.regions, .objs, .drives, .drainState] : Parts)) (.nvmeDriveError k status offline)) ∧
  (∀ k usable bytes speed width, Frame [.drives] (.nvmePortOnline k usable bytes speed width)) ∧
  (∀ h engine, Frame (cmdParts ++ ([.engines] : Parts)) (.heatHold h engine)) ∧
  (∀ h engine, Frame (cmdParts ++ ([.engines] : Parts)) (.heatResume h engine))

/-- What the TIM, reference, trigger, acquisition, Log and calibration commands leave unchanged: every part of the state that a
command's list does not name is as it was in whatever next state it answers. -/
def Obligations.UnitFrames : Prop :=
  (∀ h unit arm cfg sel count timeout ofs, Frame (cmdParts ++ ([.tims] : Parts))
      (.timSetup h unit arm cfg sel count timeout ofs)) ∧
  (∀ u, Frame [.tims] (.timArm u)) ∧
  (∀ u, Frame [.out, .tims, .groups, .logFinished, .ports] (.timDisarm u)) ∧
  (∀ u r v, Frame [.tims] (.timConfigWrite u r v)) ∧
  (∀ u balls, Frame [.pins, .tims] (.timGateChange u balls)) ∧
  (∀ u edge, Frame [.tims] (.timStartEdge u edge)) ∧
  (∀ u edge, Frame [.out, .tims, .groups, .logFinished, .ports] (.timStopEdge u edge)) ∧
  (∀ u, Frame [.tims, .logFinished] (.timTimeout u)) ∧
  (∀ u, Frame [.tims] (.timDeadTimeEnd u)) ∧
  (∀ u, Frame [.out, .tims] (.timResStatRead u)) ∧
  (Frame (cmdParts ++ umpParts ++ ([.freeCount, .tsets, .taps, .engines, .regions, .tims, .reference, .logStream, .calWaits,
      .calLanes, .claims] : Parts)) (.refclkLost)) ∧
  (Frame [.reference] (.refclkReturnRecognised)) ∧
  (Frame [.reference] (.pllRelocked)) ∧
  (∀ g, Frame [.out, .trgErrors, .ordered, .ports] (.trgGrpArm g)) ∧
  (∀ g, Frame [.out, .trgErrors, .ordered, .ports] (.trgGrpDisarm g)) ∧
  (∀ g r v, Frame [.groups, .trgErrors] (.trgGrpCfgWrite g r v)) ∧
  (∀ rising, Frame [.out, .pins, .groups, .ports] (.trigInEdge rising)) ∧
  (∀ g, Frame [.out, .groups, .trgErrors, .trigOut, .acqs, .ordered, .ports] (.fireCommit g)) ∧
  (∀ g, Frame [.regions, .groups, .acqs, .logFinished] (.rearmInstantKnown g)) ∧
  (Frame [.trigOut] (.trigOutPulse)) ∧
  (Frame [.trigOut] (.trigOutPulseEnd)) ∧
  (∀ v, Frame [.trgErrors, .trigOut] (.trgOutCfgWrite v)) ∧
  (∀ h unit arm cfg pre post count region level hyst, Frame (cmdParts ++ ([.acqs] : Parts))
      (.acqSetup h unit arm cfg pre post count region level hyst)) ∧
  (∀ k, Frame [.trgErrors, .acqs] (.acqArm k)) ∧
  (∀ k, Frame [.acqs] (.acqStart k)) ∧
  (∀ k, Frame [.out, .regions, .groups, .acqs, .logFinished, .ordered, .ports] (.acqStop k)) ∧
  (∀ k, Frame [.acqs] (.acqAdcFree k)) ∧
  (∀ k convs, Frame [.acqs] (.acqSample k convs)) ∧
  (∀ k, Frame [.out, .regions, .groups, .acqs, .logFinished, .ordered, .ports] (.acqPostComplete k)) ∧
  (Frame (umpParts ++ ([.logStream] : Parts)) (.logPacketEnter)) ∧
  (Frame (umpParts ++ ([.out, .logStream, .msixPend] : Parts)) (.logIntakeToBank)) ∧
  (Frame [.logStream] (.logBankSwap)) ∧
  (Frame [.logStream] (.logSwapTimeout)) ∧
  (∀ dword count, Frame [.out, .logFinished, .logCfg, .logStream] (.logRead dword count)) ∧
  (Frame [.out, .logStream] (.logLostPktsRead)) ∧
  (Frame [.out, .logStream] (.logLostWordsRead)) ∧
  (∀ lane t, Frame [.out, .calLanes, .ezSurvey, .ports] (.laneTempRead lane t)) ∧
  (∀ lane item, Frame [.taps, .tims, .calLanes] (.interpolatedTableInstall lane item)) ∧
  (∀ lane, Frame [.acts, .calWaits, .calLanes, .hostCmds, .claims] (.calItemStart lane)) ∧
  (∀ lane, Frame [.calLanes] (.handoverShadowStart lane)) ∧
  (∀ lane fu, Frame [.tsets, .acts, .taps, .engines, .logFinished, .calSlots, .calWaits, .calLanes, .hostCmds, .claims]
      (.handoverSwitch lane fu)) ∧
  (∀ lane item h1 h2, Frame (cmdParts ++ umpParts ++ ([.tsets, .taps, .engines, .tims, .calSlots, .calWaits, .calLanes, .claims]
      : Parts)) (.vernierMeasurementDone lane item h1 h2)) ∧
  (Frame [.calSlots] (.slotFlashSave)) ∧
  (∀ h lanes, Frame (cmdParts ++ ([.calWaits, .calLanes] : Parts)) (.calRequest h lanes)) ∧
  (∀ v, Frame [.calLanes] (.calReq v)) ∧
  (∀ v, Frame [.calCfg] (.calDtWrite v)) ∧
  (∀ vref fits adcFits adcFail, Frame (cmdParts ++ ([.modeState, .modeSeen, .tsets, .taps, .engines, .logFinished, .surveyState,
      .calWaits, .calLanes, .skew, .claims] : Parts)) (.surveyRunEnd vref fits adcFits adcFail)) ∧
  (Frame [.reference] (.refclkReturning))

/-- What the link and regatta commands leave unchanged: every part of the state that a command's list does not name is as it was in
whatever next state it answers. -/
def Obligations.RegattaFrames : Prop :=
  (∀ p flit pl, Frame (strokeParts ++ safeParts ++ bhLogParts ++ ([.objs, .fcErrors, .geoms, .drainState, .trgErrors, .logCfg,
      .calCfg, .ezTree, .heatMasks, .ezErrors, .easyAllCfg, .queuePairs, .contexts, .locks, .apSel, .apWaits, .msixTable,
      .msixPend, .umpCfg, .mailbox, .firmware, .debugLock, .sensors, .eid, .bhCore, .aonCfg, .stopTimer, .rails, .railRegs, .sns]
      : Parts)) (.ezDataFlit p flit pl)) ∧
  (∀ p, Frame [.out, .ports] (.ezReplayTimeout p)) ∧
  (∀ p, Frame (strokeParts ++ ([.freeCount, .regions, .drainState, .logCfg, .ezTree, .ezErrors, .hostCmds, .queuePairs, .apWaits,
      .msixPend] : Parts)) (.ezLinkDown p)) ∧
  (∀ p lanes farId farPort, Frame [.out, .ezTree, .ezErrors, .ports] (.ezLinkTrained p lanes farId farPort)) ∧
  (∀ rx, Frame (safeParts ++ ([.ezErrors] : Parts)) (.ezEvtEasyall rx)) ∧
  (∀ rx, Frame (ezEventParts ++ ([.groups] : Parts)) (.ezEvtFire rx)) ∧
  (∀ rx, Frame (ezEventParts ++ ([.groups, .trgErrors, .trigOut, .acqs, .ordered] : Parts)) (.ezEvtArm rx)) ∧
  (∀ rx, Frame (ezEventParts ++ ([.groups, .trgErrors, .trigOut, .acqs, .ordered] : Parts)) (.ezEvtDone rx)) ∧
  (∀ rx, Frame (ezEventParts ++ ([.flagPend] : Parts)) (.ezEvtRflag rx)) ∧
  (∀ rx, Frame (ezEventParts ++ ([.modeState, .modeSeen, .chans, .tsets, .engines, .regions, .calLanes, .skew, .hostCmds]
      : Parts)) (.ezEvtCrew rx)) ∧
  (∀ rx, Frame (strokeParts ++ ([.ezErrors] : Parts)) (.ezEvtHold rx)) ∧
  (∀ rx, Frame (strokeParts ++ ([.ezTree, .ezErrors] : Parts)) (.ezEvtRole rx)) ∧
  (∀ rx first second, Frame [.out, .ports] (.ezEvtTt rx first second)) ∧
  (∀ rx, Frame [.out, .ports] (.ezEvtLink rx)) ∧
  (Frame [.out, .groups, .trgErrors, .trigOut, .acqs, .ordered, .ports] (.ezOrderedEventApply)) ∧
  (Frame (safeParts ++ ([.ezErrors] : Parts)) (.orphan)) ∧
  (Frame [.ezTree, .ezErrors] (.ezCtrlEnum)) ∧
  (Frame [.out, .ezSurvey, .ports] (.ezCtrlSurvey)) ∧
  (Frame strokeParts (.ezCtrlTakeover)) ∧
  (∀ me cables, Frame [.out, .ezTree, .heatMasks, .ezSurvey, .skew, .strokeState, .roleState, .gridState, .ports]
      (.enumerationDone me cables)) ∧
  (Frame (umpParts ++ ([.out, .ezTree, .ezSurvey, .skew, .catchState, .ports] : Parts)) (.skewSurveyDone)) ∧
  (Frame [.skew] (.skewSlewStep)) ∧
  (∀ v, Frame [.out, .roleState, .ports] (.ezRoleGo v)) ∧
  (Frame [.roleState] (.roleRequestTimeout)) ∧
  (Frame [.out, .tims, .groups, .logFinished, .strokeState, .gridState, .ports] (.frameStart)) ∧
  (∀ phase, Frame (strokeParts ++ ([.ezErrors] : Parts)) (.catchInPulse phase)) ∧
  (Frame strokeParts (.catchMiss)) ∧
  (Frame [.out, .strokeState, .ports] (.strokeGeneration)) ∧
  (Frame strokeParts (.generationTimeout)) ∧
  (∀ v, Frame (strokeParts ++ ([.ezErrors] : Parts)) (.ezStrokeWrite v)) ∧
  (Frame safeParts (.easyallRaise)) ∧
  (Frame (cmdParts ++ ([.modeState, .modeSeen, .skew, .easyAll] : Parts)) (.easyallClear)) ∧
  (Frame safeParts (.easyallNLow)) ∧
  (∀ low, Frame safeParts (.easyallIgnoreEnd low)) ∧
  (∀ rx, Frame [.ports] (.ezEvtReservedType rx))

/-- What the ownership, queue, mode and host-access commands leave unchanged: every part of the state that a command's list does not
name is as it was in whatever next state it answers. -/
def Obligations.HostFrames : Prop :=
  (∀ h tcid tsq, Frame (haltParts ++ cmdParts ++ umpParts ++ ([.freeCount, .lanes, .regions, .objs, .drainState, .calWaits,
      .locks] : Parts)) (.abort h tcid tsq)) ∧
  (∀ h engine coupling mask, Frame (cmdParts ++ ([.tsets, .engines, .calWaits, .calLanes] : Parts))
      (.crewMap h engine coupling mask)) ∧
  (∀ h kind first count, Frame (cmdParts ++ ([.claims] : Parts)) (.claim h kind first count)) ∧
  (∀ h kind first count, Frame (cmdParts ++ ([.tims, .groups, .acqs, .logFinished, .claims] : Parts))
      (.release h kind first count)) ∧
  (∀ h lock timeout, Frame (cmdParts ++ ([.locks] : Parts)) (.lock h lock timeout)) ∧
  (∀ lock, Frame [.hostCmds, .locks] (.lockGrant lock)) ∧
  (∀ sq cid, Frame [.hostCmds, .locks] (.lockTimeout sq cid)) ∧
  (∀ h lock validate, Frame (cmdParts ++ ([.locks] : Parts)) (.unlock h lock validate)) ∧
  (∀ h, Frame cmdParts (.barrier h)) ∧
  (∀ h mode, Frame (haltParts ++ cmdParts ++ umpParts ++ bhLogParts ++ ([.holdReq, .lanes, .chans, .taps, .regions, .groups,
      .calCfg, .surveyState, .calSlots, .calWaits, .docked, .claims, .firmware, .stopTimer, .wakeFailure] : Parts))
      (.modeSet h mode)) ∧
  (∀ q entry, Frame [.hostCmds, .queuePairs] (.commandFetch q entry)) ∧
  (∀ q cid, Frame [.hostCmds, .queuePairs] (.commandStart q cid)) ∧
  (∀ q cid, Frame (cmdParts ++ ([.engines, .regions, .tims, .groups, .acqs, .logFinished, .queuePairs, .contexts, .claims,
      .locks, .msixPend, .stopTimer] : Parts)) (.commandCommit q cid)) ∧
  (∀ q v, Frame (umpParts ++ ([.queuePairs, .apWaits] : Parts)) (.hqSqTailWrite q v)) ∧
  (∀ q v, Frame (umpParts ++ ([.out, .queuePairs, .apWaits, .msixPend] : Parts)) (.hqCqHeadWrite q v)) ∧
  (∀ q v, Frame (umpParts ++ ([.queuePairs] : Parts)) (.hqSqCfgWrite q v)) ∧
  (∀ q v, Frame (umpParts ++ ([.queuePairs] : Parts)) (.hqCqCfgWrite q v)) ∧
  (∀ q, Frame [.queuePairs] (.hqSqRestart q)) ∧
  (∀ c, Frame (haltParts ++ cmdParts ++ umpParts ++ ([.freeCount, .lanes, .regions, .objs, .drainState, .tims, .groups, .acqs,
      .calWaits, .queuePairs, .contexts, .claims, .locks] : Parts)) (.hqCtxReset c)) ∧
  (∀ v, FrameKeeps resetKeeps (.gblCtrlDevReset v)) ∧
  (∀ r, FrameKeeps resetKeeps (.hostDeviceReset r)) ∧
  (∀ n v, Frame [.apSel] (.gblApSelWrite n v)) ∧
  (∀ n v, Frame [.locks] (.gblLockWrite n v)) ∧
  (∀ n offset, Frame [.freeCount, .out, .tims, .logFinished, .logCfg, .logStream, .ports, .apWaits] (.apertureRead n offset)) ∧
  (∀ n offset v, FrameKeeps [.pending, .now, .pins] (.apertureWrite n offset v)) ∧
  (∀ offset length, Frame [.out] (.bar2Read offset length)) ∧
  (∀ offset data, Frame [.regions] (.bar2Write offset data)) ∧
  (∀ offset v, FrameKeeps [.pending, .now, .pins] (.registerWrite offset v))

/-- What the Umpire and Boathouse commands leave unchanged: every part of the state that a command's list does not name is as it was
in whatever next state it answers. -/
def Obligations.UmpireAndBoathouseFrames : Prop :=
  (∀ src detail, Frame umpParts (.umpireEvent src detail)) ∧
  (∀ src level cycles, Frame [.umpHist, .umpSrcs] (.wireFault src level cycles)) ∧
  (∀ src, Frame [.umpSrcs] (.umpireWindowClose src)) ∧
  (∀ src, Frame (safeParts ++ bhLogParts ++ ([.msixPend] : Parts)) (.reactionTimerExpiry src)) ∧
  (∀ src, Frame [.umpHist, .umpSrcs] (.quietRecovery src)) ∧
  (∀ src, Frame (safeParts ++ bhLogParts ++ ([.msixPend] : Parts)) (.umpSrcClear src)) ∧
  (∀ src, Frame umpParts (.umpSrcForce src)) ∧
  (∀ v, Frame [.umpCfg, .umpSrcs] (.umpWireInj v)) ∧
  (∀ src r v, Frame [.umpCfg, .umpSrcs] (.umpSrcConfigWrite src r v)) ∧
  (∀ pc, Frame (umpParts ++ bhLogParts ++ ([.hostCmds, .mailbox, .firmware, .bhCore] : Parts)) (.boathouseWatchdogExpiry pc)) ∧
  (∀ temps volts currents, Frame (umpParts ++ ([.sensors, .bhCore] : Parts)) (.sensorRead temps volts currents)) ∧
  (∀ vddh0 vddh1, Frame (umpParts ++ ([.crossDie, .lanes] : Parts)) (.crossDieCheck vddh0 vddh1)) ∧
  (∀ src body, Frame mbxParts (.getInfo src body)) ∧
  (∀ src body, Frame mbxParts (.readSensors src body)) ∧
  (∀ src body, Frame mbxParts (.readLog src body)) ∧
  (∀ src body, Frame (mbxParts ++ bhLogParts ++ ([.firmware] : Parts)) (.updateErase src body)) ∧
  (∀ src body, Frame (mbxParts ++ bhLogParts ++ ([.firmware] : Parts)) (.updateWrite src body)) ∧
  (∀ src body, Frame (mbxParts ++ umpParts ++ bhLogParts ++ ([.firmware] : Parts)) (.updateVerify src body)) ∧
  (∀ src body, Frame (mbxParts ++ bhLogParts ++ ([.firmware] : Parts)) (.updateActivate src body)) ∧
  (∀ src body, Frame mbxParts (.propose src body)) ∧
  (∀ src body, Frame (mbxParts ++ umpParts ++ bhLogParts) (.sign src body)) ∧
  (∀ src body, Frame (mbxParts ++ umpParts ++ bhLogParts ++ ([.regions, .objs, .drainState, .queuePairs, .apSel, .policy,
      .failKeys] : Parts)) (.commit src body)) ∧
  (∀ src body, Frame mbxParts (.cancel src body)) ∧
  (∀ src body, Frame mbxParts (.getProposal src body)) ∧
  (Frame [.proposal, .policyStore] (.proposalExpiry)) ∧
  (∀ src body, Frame (mbxParts ++ ([.debugLock] : Parts)) (.debugChallenge src body)) ∧
  (∀ src body, Frame (mbxParts ++ umpParts ++ bhLogParts ++ ([.regions, .objs, .drainState, .debugLock] : Parts))
      (.debugResponse src body)) ∧
  (Frame [.debugLock] (.debugChallengeExpiry)) ∧
  (∀ src body, Frame (mbxParts ++ bhLogParts ++ ([.debugLock] : Parts)) (.debugLock src body)) ∧
  (∀ src body, Frame (mbxParts ++ ([.policy] : Parts)) (.setPartyKeys src body)) ∧
  (∀ eid pkts, Frame [.out, .eid] (.setEndpointId eid pkts)) ∧
  (∀ pkts, Frame [.out] (.getEndpointId pkts)) ∧
  (∀ pkts, Frame [.out] (.getMctpVersionSupport pkts)) ∧
  (∀ pkts, Frame [.out] (.getMessageTypeSupport pkts)) ∧
  (∀ pkts, Frame [.freeCount, .out] (.getVendorDefinedMessageSupport pkts)) ∧
  (∀ i, Frame (haltParts ++ cmdParts ++ umpParts ++ ([.tapInst, .lanes, .chans, .taps, .regions, .groups, .surveyState,
      .calWaits, .claims, .bhCore] : Parts)) (.tapInstructionLoad i))

/-- What the reset, wake and rail-sense commands leave unchanged: every part of the state that a command's list does not name is as
it was in whatever next state it answers. -/
def Obligations.PowerFrames : Prop :=
  (∀ w, Frame [.out, .aonCfg, .rails, .sns] (.wakeDetected w)) ∧
  (∀ present, Frame [.out, .aonCfg, .rails, .sns] (.wakeDetectorArmed present)) ∧
  (∀ n, Frame [.rails] (.pgAsserted n)) ∧
  (Frame [.rails] (.powerGroupEnable)) ∧
  (Frame (bhLogParts ++ ([.modeState, .firmware, .bhCore, .rails] : Parts)) (.pllLocked)) ∧
  (Frame (haltParts ++ cmdParts ++ umpParts ++ bhLogParts ++ ([.ready, .lanes, .chans, .taps, .regions, .groups, .surveyState,
      .calWaits, .docked, .claims, .firmware, .wakeFailure, .rails] : Parts)) (.bootComplete)) ∧
  (Frame [.aonCfg, .stopTimer, .wakeFailure, .rails] (.pgTimeout)) ∧
  (Frame [.aonCfg, .stopTimer, .wakeFailure, .rails] (.pllLockTimeout)) ∧
  (Frame [.aonCfg, .rails] (.wakeRetry)) ∧
  (FrameKeeps resetKeeps (.stopEntry)) ∧
  (∀ n, FrameKeeps resetKeeps (.pgLoss n)) ∧
  (∀ snsUv, FrameKeeps [.pending, .now, .out, .pins, .policyStore] (.powerOnReset snsUv)) ∧
  (FrameKeeps resetKeeps (.vaonLoss)) ∧
  (FrameKeeps resetKeeps (.resetN)) ∧
  (Frame umpParts (.rootPllLockLoss)) ∧
  (∀ n uv, Frame [.out, .msixPend, .aonCfg, .rails, .sns] (.railSenseEvent n uv)) ∧
  (∀ n v, Frame [.out, .msixPend, .aonCfg, .rails, .railRegs, .sns] (.rsSnsThrWrite n v)) ∧
  (∀ v, Frame [.railRegs] (.rsCheck v)) ∧
  (∀ uv, Frame [.railRegs, .sns] (.rsCheckDone uv)) ∧
  (∀ uv, Frame (umpParts ++ ([.sns] : Parts)) (.rsReadback uv)) ∧
  (Frame (bhLogParts ++ ([.firmware, .bhCore, .rails] : Parts)) (.resetNRelease)) ∧
  (∀ aer, Frame (umpParts ++ ([.out, .pciCfg] : Parts)) (.pcieUncorrectableError aer)) ∧
  (∀ die lanes, Frame umpParts (.dieToDieInterfaceError die lanes)) ∧
  (∀ n uv, Frame [.out, .msixPend, .aonCfg, .rails, .sns] (.unsettledOutputSettles n uv))

/-- Each of these commands and events of one lane leaves the registers, channels and acquisition unit of every other lane as they
were, and a channel's comparator and PMU compliance events every other channel (R10, R41, R47, R51). -/
def Obligations.LaneCommandsKeepOtherLanes : Prop :=
  (∀ lane v, OneLane lane.val (.lnLvlCommit lane v)) ∧
  (∀ h (lane : Byte) f, OneLane lane.toNat (.levelWrite h lane f)) ∧
  (∀ lane, OneLane lane.val (.dacSettled lane)) ∧
  (∀ lane v, OneLane lane.val (.adcStart lane v)) ∧
  (∀ lane l raw range, OneLane lane.val (.adcMeasurementDone lane l raw range)) ∧
  (∀ lane m, OneLane lane.val (.driverOvercurrent lane m)) ∧
  (∀ lane m, OneLane lane.val (.pmuOvercurrent lane m)) ∧
  (∀ lane m, OneLane lane.val (.clampEvent lane m)) ∧
  (∀ lane v, OneLane lane.val (.lnEvtStatusClear lane v)) ∧
  (∀ lane, OneLane lane.val (.activityWindowEnd lane)) ∧
  (∀ lane v, OneLane lane.val (.lnActCtrlWrite lane v)) ∧
  (∀ lane v, OneLane lane.val (.lnTsrSelWrite lane v)) ∧
  (∀ lane v, OneLane lane.val (.lnTapSelWrite lane v)) ∧
  (∀ (ch : ChanId) fine uv, OneChan ch.val (.comparatorEdge ch fine uv)) ∧
  (∀ (ch : ChanId) limit, OneChan ch.val (.pmuCompliance ch limit)) ∧
  (∀ lane m s t, exec (.activityWindowEnd lane) s = .next t → m / 17 ≠ lane.val → t.act m = s.act m)

/-- Each of the commands and events listed here, which name one engine, leaves every other engine as it was, a write of COX_CFG
those that wait at no barrier; and TSET_WRITE changes one timing set, of the crew's channels alone (R69, R80, R99, R106, R107, R114,
R124, R278). -/
def Obligations.EngineCommandsKeepOtherEngines : Prop :=
  (∀ (e : EngineId) v, OneEngine e.val (.coxTblSelWrite e v)) ∧
  (∀ (e : EngineId) v s t j, exec (.coxCfgWrite e v) s = .next t → j ≠ e.val →
    (∀ h, (s.eng j).heat = some h → h.barAt = none) → t.eng j = s.eng j) ∧
  (∀ (e : EngineId) b v, OneEngine e.val (.coxBindWrite e b v)) ∧
  (∀ (e : EngineId) q v, OneEngine e.val (.patternConfigWrite e q v)) ∧
  (∀ h (e : Byte) sp f c d, OneEngine e.toNat (.tableLoad h e sp f c d)) ∧
  (∀ h (e : Byte) sp f c d, OneEngine e.toNat (.tablePatch h e sp f c d)) ∧
  (∀ h (e : Byte) i m n p l, OneEngine e.toNat (.tsetWrite h e i m n p l)) ∧
  (∀ (e : EngineId), OneEngine e.val (.tsetTakesEffect e)) ∧
  (∀ (e : EngineId), OneEngine e.val (.waitBarTimeout e)) ∧
  (∀ (e : EngineId) b g ue, OneEngine e.val (.segmentFetch e b g ue)) ∧
  (∀ (e : EngineId), OneEngine e.val (.rawWindowEnd e)) ∧
  (∀ h (e : Byte) a d, OneEngine e.toNat (.heatStart h e a d)) ∧
  (∀ (e : EngineId), OneEngine e.val (.heatAdmission e)) ∧
  (∀ (e : EngineId), OneEngine e.val (.heatCompletion e)) ∧
  (∀ h (e : Byte), OneEngine e.toNat (.heatHold h e)) ∧
  (∀ h (e : Byte), OneEngine e.toNat (.heatResume h e)) ∧
  (∀ h (e : Byte) (i : Byte) m n p l s t k, exec (.tsetWrite h e i m n p l) s = .next t →
    k % 256 ≠ i.toNat ∨ (s.eng e.toNat).crew.getLsbD (k / 256) = false → t.tset k = s.tset k)

/-- Each of the commands and events listed here, which name one TIM unit, trigger group, acquisition unit or lane's calibration,
leaves every other of its kind as it was, and an acquisition record is written to the unit's own region alone (R175, R197, R201,
R204, R218). -/
def Obligations.UnitCommandsKeepOtherUnits : Prop :=
  (∀ h (u : Byte) a b c d e f, OneTim u.toNat (.timSetup h u a b c d e f)) ∧
  (∀ (u : TimId), OneTim u.val (.timArm u)) ∧
  (∀ (u : TimId), OneTim u.val (.timDisarm u)) ∧
  (∀ (u : TimId) q v, OneTim u.val (.timConfigWrite u q v)) ∧
  (∀ (u : TimId) b, OneTim u.val (.timGateChange u b)) ∧
  (∀ (u : TimId) e, OneTim u.val (.timStartEdge u e)) ∧
  (∀ (u : TimId) e, OneTim u.val (.timStopEdge u e)) ∧
  (∀ (u : TimId), OneTim u.val (.timTimeout u)) ∧
  (∀ (u : TimId), OneTim u.val (.timDeadTimeEnd u)) ∧
  (∀ (u : TimId), OneTim u.val (.timResStatRead u)) ∧
  (∀ (g : GroupId) q v, OneGroup g.val (.trgGrpCfgWrite g q v)) ∧
  (∀ (g : GroupId), OneGroup g.val (.fireCommit g)) ∧
  (∀ (g : GroupId), OneGroup g.val (.rearmInstantKnown g)) ∧
  (∀ h (u : Byte) a b c d e f g i, OneAcq u.toNat (.acqSetup h u a b c d e f g i)) ∧
  (∀ (k : GroupId), OneAcq k.val (.acqArm k)) ∧
  (∀ (k : GroupId), OneAcq k.val (.acqStart k)) ∧
  (∀ (k : GroupId), OneAcq k.val (.acqStop k)) ∧
  (∀ (k : GroupId), OneAcq k.val (.acqAdcFree k)) ∧
  (∀ (k : GroupId) l, OneAcq k.val (.acqSample k l)) ∧
  (∀ (k : GroupId), OneAcq k.val (.acqPostComplete k)) ∧
  (∀ lane, OneCalLane lane.val (.calItemStart lane)) ∧
  (∀ lane t, OneCalLane lane.val (.laneTempRead lane t)) ∧
  (∀ lane i, OneCalLane lane.val (.interpolatedTableInstall lane i)) ∧
  (∀ lane, OneCalLane lane.val (.handoverShadowStart lane)) ∧
  (∀ (k : GroupId) s t j, exec (.acqStop k) s = .next t → j ≠ handleIdx (s.acq k.val).region → t.region j = s.region j) ∧
  (∀ (k : GroupId) s t j, exec (.acqPostComplete k) s = .next t → j ≠ handleIdx (s.acq k.val).region →
    t.region j = s.region j)

/-- Each of the commands and events listed here, which name one Umpire source, queue pair, lock, range of claims or rail-sense
comparator, leaves every other of its kind as it was, a clear of a source where that source's timer does not expire (R272, R291,
R292, R298, R347). -/
def Obligations.NamedResourcesChangeAlone : Prop :=
  (∀ (n : SourceId) d, OneSource n.val (.umpireEvent n d)) ∧
  (∀ (n : SourceId) l c, OneSource n.val (.wireFault n l c)) ∧
  (∀ (n : SourceId), OneSource n.val (.umpireWindowClose n)) ∧
  (∀ (n : SourceId), OneSource n.val (.quietRecovery n)) ∧
  (∀ (n : SourceId) s t j, (s.src n.val).st ≠ .severe ∨ s.ckC < (s.src n.val).dueAt / 2 →
    exec (.umpSrcClear n) s = .next t → j ≠ n.val → t.src j = s.src j) ∧
  (∀ (n : SourceId), OneSource n.val (.umpSrcForce n)) ∧
  (∀ (n : SourceId) r v, OneSource n.val (.umpSrcConfigWrite n r v)) ∧
  (∀ (q : QueueId) v, OnePair q.val (.hqSqTailWrite q v)) ∧
  (∀ (q : QueueId) v, OnePair q.val (.hqCqHeadWrite q v)) ∧
  (∀ (q : QueueId) r, OnePair q.val (.hqSqCfgWrite q r)) ∧
  (∀ (q : QueueId) r, OnePair q.val (.hqCqCfgWrite q r)) ∧
  (∀ (q : QueueId), OnePair q.val (.hqSqRestart q)) ∧
  (∀ (q : QueueId) e, OnePair q.val (.commandFetch q e)) ∧
  (∀ (q : QueueId) c, OnePair q.val (.commandStart q c)) ∧
  (∀ h (n : Byte) time, OneLock n.toNat (.lock h n time)) ∧
  (∀ h (n : Byte) v, OneLock n.toNat (.unlock h n v)) ∧
  (∀ (n : Fin 64), OneLock n.val (.lockGrant n)) ∧
  (∀ (n : Fin 64) v, OneLock n.val (.gblLockWrite n v)) ∧
  (∀ h (kind : Byte) (first count : BitVec 16) s t x, exec (.claim h kind first count) s = .next t →
    x ∉ claimRange kind.toNat first.toNat count.toNat → t.claim x = s.claim x) ∧
  (∀ h (kind : Byte) (first count : BitVec 16) s t x, exec (.release h kind first count) s = .next t →
    x ∉ claimRange kind.toNat first.toNat count.toNat → t.claim x = s.claim x) ∧
  (∀ (n : Fin 8) uv, OneComparator n.val (.railSenseEvent n uv)) ∧
  (∀ (n : Fin 8) uv, OneComparator n.val (.unsettledOutputSettles n uv)) ∧
  (∀ (n : Fin 8) v, OneComparator n.val (.rsSnsThrWrite n v))

/-- Where a command or event stores bytes of a region, every byte outside the stored range reads as before: REGION_WRITE at
OFFSET, SEGMENT_WRITE in its granules of every slice, a capture write at its window address, BAR2 at the mapped byte
(R109, R123, R141, R268, R277). -/
def Obligations.RegionBytesOutsideTheStoreStay : Prop :=
  (∀ h hd (off len : Word64) data s t j a, exec (.regionWrite h hd off len data) s = .next t →
    j ≠ handleIdx hd ∨ a < off.toNat ∨ off.toNat + len.toNat ≤ a → t.memByte j a = s.memByte j a) ∧
  (∀ h hd (first count : Word32) data s t j a, exec (.segmentWrite h hd first count data) s = .next t →
    (j ≠ handleIdx hd ∨ ∀ sl ∈ (s.region (handleIdx hd)).slices,
      a < (s.region (handleIdx hd)).sliceBase sl.1 + granBytes sl.2 * first.toNat ∨
      (s.region (handleIdx hd)).sliceBase sl.1 + granBytes sl.2 * (first.toNat + count.toNat) ≤ a) →
    t.memByte j a = s.memByte j a) ∧
  (∀ (e : EngineId) ue hbm s t j a, exec (.captureWriteLanded e ue hbm) s = .next t →
    (∀ w rest, takeWrite e.val s.fc.queue = some (w, rest) →
      j ≠ w.region ∨ a < w.data.span.1 ∨ w.data.span.2 ≤ a) → t.memByte j a = s.memByte j a) ∧
  (∀ off data s t j a, KeysRise s.regions → exec (.bar2Write off data) s = .next t →
    (∀ k, k < data.length → s.bar2At (off + k) ≠ some (j, a)) → t.memByte j a = s.memByte j a) ∧
  (∀ off data s t j, exec (.bar2Write off data) s = .next t → (s.region j).kind ≠ .shared → t.region j = s.region j)

/-- UPDATE_ERASE and UPDATE_WRITE change only the flash of the inactive slot that they name and the place of the next log
entry (R315, R316, R320). -/
def Obligations.UpdatesKeepOtherFlash : Prop :=
  (∀ src body s t a, exec (.updateErase src body) s = .next t → ¬ s.logSpan a →
    (let b := msgBody src body s
     let lo := slotBase s.inactiveB + leNat (b.take 4)
     a < lo ∨ lo + leNat (b.drop 4) * sectorBytes ≤ a) → t.flashByte a = s.flashByte a) ∧
  (∀ src body s t a, exec (.updateWrite src body) s = .next t → ¬ s.logSpan a →
    (let b := msgBody src body s
     let lo := slotBase s.inactiveB + leNat (sliceB b 0 4)
     a < lo ∨ lo + leNat (sliceB b 4 4) ≤ a) → t.flashByte a = s.flashByte a)

/-- A step takes the command at the front of the queue and is that command executed with the queue's rest. -/
def Obligations.StepExecutesTheFrontCommand : Prop :=
  ∀ c rest s, s.pending = c :: rest → step s = exec c { s with pending := rest }

/-- With no command waiting one tick of the model's clock passes: the model's choice, log entry 3. A fourth tick begins a CK_F cycle
for GBL_MODE; a second one is a CK_C edge, at which the Umpire samples each pair, and the third Invalid sample is a wire fault; a
stop edge of a tick that has passed gives its unit's result; a member notes whether it has heats, for the root; and a member whose
coupled heat awaits its launch notes what it has told its peers of its first link. Nothing else changes, but for vectors and flits
that go out (R16, R23, R93, R102, R185, R247, R299). -/
def Obligations.EmptyQueueLetsATickPass : Prop :=
  ∀ s, s.pending = [] → KeysRise s.umpSrcs → KeysRise s.engines → ∃ t, step s = .next t ∧ t.now = s.now + 1 ∧
    KeepsAllBut [.now, .out, .modeSeen, .engines, .heatMasks, .groups, .msixPend, .logFinished, .ports, .tims, .umpHist,
      .umpSrcs] s t ∧
    (∀ e, t.eng e = s.eng e ∨ ∃ h a k f, (s.eng e).coupled = true ∧ (s.eng e).heat = some h ∧ h.phase = .waiting ∧
      t.eng e = { s.eng e with heat := some { h with leadAt := a, leadSent := k, annFault := f } }) ∧
    t.dev.seenSafe = ((s.dev.seenSafe && decide (t.now % 4 ≠ 0)) || decide (s.mode = .safe)) ∧
    t.dev.seenHold = ((s.dev.seenHold && decide (t.now % 4 ≠ 0)) || decide (s.mode = .hold)) ∧
    t.dev.seenRun = ((s.dev.seenRun && decide (t.now % 4 ≠ 0)) || decide (s.mode = .run)) ∧
    (t.now % 2 = 1 → t.umpSrcs = s.umpSrcs) ∧
    (Powered s → t.now % 2 = 0 → ∀ x ∈ s.umpSrcs,
      match x.2.heldAt t.ckC with
      | some b => (t.src x.1).pairP = b ∧ (t.src x.1).pairN = b ∧ (t.src x.1).good = 0 ∧ (t.src x.1).bad = min 3 (x.2.bad + 1) ∧
          (x.2.bad = 2 → (t.src x.1).wire = true)
      | none => (t.src x.1).pairP = false ∧ (t.src x.1).pairN = true ∧ (t.src x.1).bad = 0 ∧
          (t.src x.1).good = min 3 (x.2.good + 1) ∧ (t.src x.1).wire = x.2.wire) ∧
    (∀ u a, (s.tim u).stopAt = some a →
      if (fineTick a).1 < t.rtick then
        (t.tim u).stopAt = none ∧ ∃ r, (t.tim u).result = some r ∧ r.code = timOk ∧ r.seq = (s.tim u).seq + 1
      else t.tim u = s.tim u) ∧
    t.ez.heatsTold = if s.isTop then s.ez.heatsTold else s.anyEngine fun e => e.active || e.heat.isSome

/-- The registers and states that the spec gives a reset value hold it: the mode, READY, channels, timing sets, engines, TIM
units, the Log, calibration, the links, Easy-All, queues, locks, the Umpire and the rail-sense logic (R22, R49, R59, R103,
R191, R215, R237, R265, R270, R291, R296, R297, R298, R311, R351). -/
def Obligations.ResetValues : Prop :=
  State.reset.mode = .boot ∧ State.reset.dev.ready = false ∧ State.reset.pending = [] ∧
  (∀ c, (State.reset.chan c).active = FeSet.reset ∧ (State.reset.chan c).staged = FeSet.reset ∧
    (State.reset.chan c).failCnt = 0) ∧
  (∀ i, (State.reset.tset i).period = 4096 ∧ (State.reset.tset i).mux = 0 ∧ (State.reset.tset i).dOn = 256 ∧
    (State.reset.tset i).dData = 1024 ∧ (State.reset.tset i).dRet = 2048 ∧ (State.reset.tset i).dOff = 256 ∧
    (State.reset.tset i).stbOpen = 3072 ∧ (State.reset.tset i).stbClose = 3584) ∧
  (∀ e, (State.reset.eng e).st = .idle ∧ (State.reset.eng e).crew = 0 ∧ (State.reset.eng e).tableValid = false ∧
    ∀ a, (State.reset.eng e).entryAt a = BitVec.allOnes 128) ∧
  (∀ u, (State.reset.tim u).st = .idle ∧ (State.reset.tim u).count = 1 ∧ (State.reset.tim u).result = none) ∧
  (∀ g, (State.reset.group g).st = .disabled) ∧ (∀ k, (State.reset.acq k).st = .idle) ∧
  State.reset.log.kindEn = 0xFF ∧ State.reset.log.swap = 1 ∧ State.reset.cal.en = true ∧ State.reset.cal.dt = 32 ∧
  State.reset.ez.valid = false ∧ State.reset.ez.tol = 24 ∧ State.reset.ea.latched = false ∧ State.reset.ea.cfg = 0xC0 ∧
  (∀ q, (State.reset.qp q).sqEn = false ∧ (State.reset.qp q).cqEn = false ∧ (State.reset.qp q).sqLog = 4 ∧
    (State.reset.qp q).cqPhase = true) ∧
  (∀ n, n < 64 → (State.reset.lock n).owner = 31 ∧ (State.reset.lock n).rank.toNat = n) ∧
  (∀ x, State.reset.claim x = 31) ∧
  (∀ n, (State.reset.src n).st = .clear ∧ (State.reset.src n).wire = false ∧ (State.reset.src n).cfg = umpCfgReset n ∧
    (State.reset.src n).win = 0x03E803E8 ∧ (State.reset.src n).timer = 0x64) ∧
  (∀ n, (State.reset.sn n).thr = 0x0FA00000 ∧ (State.reset.sn n).cfg = 0)

/-- In Stop nothing but an event of the always-on domain changes anything (R341, R343, R346, R347). -/
def Obligations.StoppedDeviceIgnoresTheRest : Prop :=
  ∀ i s, s.dev.base = .stop → actsInStop i = false → exec i s = .next s

/-- Until READY = 1 a write to any other window than GBL_, BH_ and AON_, and to BAR2, changes nothing, and a read there returns
zeros (R270). -/
def Obligations.NothingIsWrittenBeforeReady : Prop :=
  (∀ i s, s.dev.ready = false → waitsReady i = true → exec i s = .next s) ∧
  (∀ u s, Powered s → s.dev.ready = false → exec (.timResStatRead u) s = .next (s.send (.readData [0]))) ∧
  (∀ dword count s, Powered s → s.dev.ready = false →
    exec (.logRead dword count) s = .next (s.send (.readData (List.replicate count 0)))) ∧
  (∀ s, Powered s → s.dev.ready = false → exec .logLostPktsRead s = .next (s.send (.readData [0]))) ∧
  (∀ s, Powered s → s.dev.ready = false → exec .logLostWordsRead s = .next (s.send (.readData [0]))) ∧
  (∀ off n s, Powered s → s.dev.ready = false → exec (.bar2Read off n) s = .next (s.send (.readBytes (List.replicate n 0))))

/-- A queue command whose TARGET is no enumerated member completes BAD_COMMAND, and one whose TARGET its context's entry does
not name completes BAD_COMMAND or DENIED; neither changes anything else (R276, R324). -/
def Obligations.CommandForNoMemberIsRefused : Prop :=
  ∀ i h s, hdr? i = some h → Powered s →
  (∀ c ∈ s.host.inflight, c.names h.sq h.cid = true → c.stage = .started ∧
    (c.raw.all fun e => (spelled i).any fun x => entrySpells e h x.1 x.2) = true) →
  (bit s.ez.members h.target.toNat = false →
    Answers i s fun t => Decided t h stBadCommand ∧ KeepsAllBut [.hostCmds] s t) ∧
  (bit s.ez.members h.target.toNat = true → grantsMember (s.recOf h) h.target = false →
    Answers i s fun t => (Decided t h stBadCommand ∨ Decided t h stDenied) ∧ KeepsAllBut [.hostCmds] s t)

/-- R41: a commit applies every staged half of the masked channels where every check passes, and otherwise none: the active and
staged halves of every channel stay, and LN_LVL_STATUS names the lowest failing channel and its lowest reason code. -/
def Obligations.CommitAppliesAllOrNothing : Prop :=
  ∀ (lane : LaneId) v s, HostUp s → (fld v 0 16 : BitVec 16) ≠ 0 →
  let bad (j r : Nat) : Bool :=
    s.reasonApplies (16 * lane.val + j) (s.chan (16 * lane.val + j)).active (s.chan (16 * lane.val + j)).staged r
  ((∀ j r, j < 16 → bit v j = true → r ≤ 10 → bad j r = false) →
    Answers (.lnLvlCommit lane v) s fun t =>
      (∀ j, j < 16 → bit v j = true →
        (t.chan (16 * lane.val + j)).active = (s.chan (16 * lane.val + j)).staged) ∧
      (∀ c, (t.chan c).staged = (s.chan c).staged)) ∧
  (∀ j r, j < 16 → bit v j = true → r ≤ 10 → bad j r = true → (∀ q, q < r → bad j q = false) →
    (∀ i q, i < j → bit v i = true → q ≤ 10 → bad i q = false) →
    Answers (.lnLvlCommit lane v) s fun t =>
      (∀ c, (t.chan c).active = (s.chan c).active ∧ (t.chan c).staged = (s.chan c).staged) ∧
      (t.lane lane.val).lvlRefused = true ∧ (t.lane lane.val).lvlChannel.toNat = j ∧
      (t.lane lane.val).lvlReason.toNat = r)

/-- R31: on a DL4256-M1 a commit or a LEVEL_WRITE that would give a channel rate class FULL is refused. -/
def Obligations.FullRateIsRefusedOnM1 : Prop :=
  (∀ (lane : LaneId) v s j, HostUp s → s.dev.variant = .m1 → j < 16 → bit v j = true →
    (s.chan (16 * lane.val + j)).staged.rate = 2 →
    Answers (.lnLvlCommit lane v) s fun t =>
      (t.lane lane.val).lvlRefused = true ∧ ∀ c, (t.chan c).active = (s.chan c).active) ∧
  (∀ h (lane : Byte) f s j, Serves s (.levelWrite h lane f) h anyRec → s.dev.variant = .m1 → lane.toNat < 16 → fldN f.sel 13 3 = 0 →
    bit f.chmask j = true → (levelSet (s.chan (16 * lane.toNat + j)).active f).rate = 2 →
    Answers (.levelWrite h lane f) s fun t =>
      (∃ st, st ≠ stOk ∧ Decided t h st) ∧ ∀ c, (t.chan c).active = (s.chan c).active)

/-- R78: LN_ACT_CTRL.EN takes a write while no channel of the lane is in a heat and ignores it otherwise, and with EN = 0 the
activity offset A is 0 for every channel of the lane. -/
def Obligations.ActivityEnableChangesOutsideHeats : Prop :=
  (∀ (lane : LaneId) v s, HostUp s → (∀ j, j < 16 → s.inHeat (16 * lane.val + j) = false) →
    Answers (.lnActCtrlWrite lane v) s fun t => (t.lane lane.val).actEn = bit v 0 ∧ KeepsAllBut [.lanes] s t) ∧
  (∀ (lane : LaneId) v s j, HostUp s → j < 16 → s.inHeat (16 * lane.val + j) = true →
    exec (.lnActCtrlWrite lane v) s = .next s) ∧
  (∀ (s : State) k j, j < 16 → (s.lane k).actEn = false → ∀ b t, s.actOffset (16 * k + j) b t = 0)

/-- R294: UNLOCK by the owner frees the lock and completes OK, VALIDATE = 1 also clears SUSPECT, and UNLOCK of a lock that is
free or held by another context completes NOT_OWNER. -/
def Obligations.UnlockIsForTheOwner : Prop :=
  ∀ h (n validate : Byte) s, Serves s (.unlock h n validate) h anyRec → h.target = 0 → n.toNat < 64 → validate.toNat < 2 →
  (s.lockFree n.toNat = false → (s.lock n.toNat).owner = ctxOfQueue h.sq →
    Answers (.unlock h n validate) s fun t => Decided t h stOk ∧ t.lockFree n.toNat = true ∧
      (t.lock n.toNat).suspect = (if validate = 1 then false else (s.lock n.toNat).suspect)) ∧
  (s.lockFree n.toNat = true ∨ (s.lock n.toNat).owner ≠ ctxOfQueue h.sq →
    Answers (.unlock h n validate) s fun t => Decided t h stNotOwner ∧ KeepsAllBut [.hostCmds] s t)

/-- R305: while a source whose action is DEVICE_SAFE is in the fault state, a MODE_SET to any mode that is not SAFE completes
NOT_READY in SAFE and changes nothing else. The codes BOOT and RUN are no modes to set (R336). -/
def Obligations.DeviceSafeSourceHoldsSafe : Prop :=
  ∀ h (m : Byte) s n, Serves s (.modeSet h m) h (fun r => bit r.perms 6) → s.mode = .safe → (s.src n).faulty = true →
  (s.src n).action = 2 → m ∈ [(0 : Byte), 2, 4, 5, 6] →
  Answers (.modeSet h m) s fun t => Decided t h stNotReady ∧ t.mode = .safe ∧ KeepsAllBut [.hostCmds] s t

/-- The invariants of the statements below hold in the state after reset. -/
def Obligations.InvariantsHoldAtReset : Prop :=
  (∀ n, SnsOk (State.reset.sn n)) ∧ LifecycleOk State.reset ∧ MemoriesOk State.reset

/-- Every step keeps the rail-sense registers within the values they can hold: LO not above HI, HI not above 4,000, reserved
bits zero (R347, R351). -/
def Obligations.RailSenseRegistersStayLegal : Prop :=
  ∀ s t, (∀ n, SnsOk (s.sn n)) → step s = .next t → ∀ n, SnsOk (t.sn n)

/-- No step, a reset included, lowers the rollback counter (R315, R321, R322). -/
def Obligations.RollbackCounterNeverFalls : Prop :=
  ∀ s t, step s = .next t → s.bh.svn.toNat ≤ t.bh.svn.toNat

/-- Every step keeps the lifecycle legal, the policy store equal to the policy in force, and a pending LIFECYCLE proposal asking for
the next lifecycle; from there the lifecycle stays or moves on by one (R315, R327, R329). -/
def Obligations.LifecycleMovesForwardOnly : Prop :=
  ∀ s t, LifecycleOk s → step s = .next t →
  LifecycleOk t ∧ (t.bh.lifecycle = s.bh.lifecycle ∨ t.bh.lifecycle.toNat = s.bh.lifecycle.toNat + 1)

/-- Every step keeps the tables of regions and Fail Store objects sorted by index and every byte memory in its canonical form:
addresses rise and no listed byte is what an unlisted address reads as. The form is the model's own (log entry 145), no rule of the
spec; the memories are those of regions, of the flash and of the Boathouse (R108, R312, R315). -/
def Obligations.MemoriesStayCanonical : Prop :=
  ∀ s t, MemoriesOk s → step s = .next t → MemoriesOk t

end
end

