-- ==== Sys2Proof/Laws/Bytes.lean ====
section
/-! SUPPORT. Numbers as bytes: a number written in n bytes and read back is that number modulo 256^n, in either byte order. -/

namespace Sys2Proof.Machine

@[simp] theorem bytesLE_length (n x : Nat) : (bytesLE n x).length = n := by
  induction n generalizing x with
  | zero => rfl
  | succ n ih => simp [bytesLE, ih]

theorem leNat_bytesLE (n x : Nat) : leNat (bytesLE n x) = x % 256 ^ n := by
  induction n generalizing x with
  | zero => simp [bytesLE, leNat, Nat.mod_one]
  | succ n ih =>
    simp only [bytesLE, leNat, ih, BitVec.toNat_ofNat]
    exact (Nat.pow_succ' ▸ Nat.mod_mul (a := 256) (b := 256 ^ n) (x := x)).symm

theorem beNat_reverse (l : List Byte) : beNat l.reverse = leNat l := by
  unfold beNat
  rw [List.foldl_reverse]
  induction l with
  | nil => rfl
  | cons b r ih =>
    rw [List.foldr_cons, ih]
    show leNat r * 256 + b.toNat = b.toNat + 256 * leNat r
    omega

/-- A digest written out and read back. -/
@[simp] theorem beBits_bytesBE48 (d : BitVec 384) : beBits 384 (bytesBE48 d) = d := by
  unfold beBits bytesBE48
  rw [beNat_reverse, leNat_bytesLE, Nat.mod_eq_of_lt]
  · simp
  · exact Nat.lt_of_lt_of_eq d.isLt (Nat.pow_mul 2 8 48)

@[simp] theorem bytesBE48_length (d : BitVec 384) : (bytesBE48 d).length = 48 := by simp [bytesBE48]

end Sys2Proof.Machine
end

