-- ==== Sys2Proof/Laws/SMap.lean ====
section
/-! SUPPORT. Tables and byte memories: reading after a write, and the canonical form that every memory operation keeps. -/

namespace Sys2Proof.Machine

variable {α : Type}

/-! Reading a table after a write. -/

@[simp] theorem SMap.get_nil (d : Nat → α) (k : Nat) : SMap.get d [] k = d k := rfl

theorem SMap.get_del_same (d : Nat → α) (m : SMap α) (k : Nat) : SMap.get d (SMap.del m k) k = d k := by
  induction m with
  | nil => rfl
  | cons x r ih => by_cases h : x.1 = k <;> simp [SMap.del, SMap.get, h, ih]

theorem SMap.get_del_ne (d : Nat → α) (m : SMap α) {j k : Nat} (h : j ≠ k) :
    SMap.get d (SMap.del m k) j = SMap.get d m j := by
  induction m with
  | nil => rfl
  | cons x r ih =>
    by_cases hx : x.1 = k
    · have hj : x.1 ≠ j := fun e => h (e ▸ hx)
      simp [SMap.del, SMap.get, hx, ih, show ¬ k = j from fun e => h e.symm]
    · simp [SMap.del, SMap.get, hx, ih]

theorem SMap.get_ins_same (d : Nat → α) (m : SMap α) (k : Nat) (v : α) (h : ∀ x ∈ m, x.1 ≠ k) :
    SMap.get d (SMap.ins m k v) k = v := by
  induction m with
  | nil => simp [SMap.ins, SMap.get]
  | cons x r ih =>
    have hx := h x (by simp)
    have hr : ∀ y ∈ r, y.1 ≠ k := fun y hy => h y (by simp [hy])
    by_cases hk : k < x.1
    · simp [SMap.ins, SMap.get, hk]
    · simp [SMap.ins, SMap.get, hk, hx, ih hr]

theorem SMap.get_ins_ne (d : Nat → α) (m : SMap α) {j k : Nat} (v : α) (h : j ≠ k) :
    SMap.get d (SMap.ins m k v) j = SMap.get d m j := by
  have hk : ¬ k = j := fun e => h e.symm
  induction m with
  | nil => simp [SMap.ins, SMap.get, hk]
  | cons x r ih =>
    by_cases hx : k < x.1
    · simp [SMap.ins, SMap.get, hx, hk]
    · simp [SMap.ins, SMap.get, hx, ih]

theorem SMap.del_ne (m : SMap α) (k : Nat) : ∀ x ∈ SMap.del m k, x.1 ≠ k := by
  induction m with
  | nil => simp [SMap.del]
  | cons y r ih =>
    by_cases h : y.1 = k
    · simpa [SMap.del, h] using ih
    · intro x hx
      simp only [SMap.del, h, if_false, List.mem_cons] at hx
      rcases hx with rfl | hx
      · exact h
      · exact ih x hx

@[simp] theorem SMap.get_put_same (d : Nat → α) (m : SMap α) (k : Nat) (v : α) : SMap.get d (SMap.put m k v) k = v :=
  SMap.get_ins_same d _ k v (SMap.del_ne m k)

theorem SMap.get_put_ne (d : Nat → α) (m : SMap α) {j k : Nat} (v : α) (h : j ≠ k) :
    SMap.get d (SMap.put m k v) j = SMap.get d m j := by
  rw [SMap.put, SMap.get_ins_ne d _ v h, SMap.get_del_ne d m h]

theorem SMap.get_put (d : Nat → α) (m : SMap α) (j k : Nat) (v : α) :
    SMap.get d (SMap.put m k v) j = if j = k then v else SMap.get d m j := by
  by_cases h : j = k
  · subst h; simp
  · simp [h, SMap.get_put_ne d m v h]

/-! Rising keys. -/

theorem SMap.mem_del {m : SMap α} {k : Nat} {x : Nat × α} (h : x ∈ SMap.del m k) : x ∈ m := by
  induction m with
  | nil => simp [SMap.del] at h
  | cons y r ih =>
    by_cases hy : y.1 = k
    · simp only [SMap.del, hy, if_true] at h
      exact List.mem_cons_of_mem _ (ih h)
    · simp only [SMap.del, hy, if_false, List.mem_cons] at h
      rcases h with h | h
      · simp [h]
      · exact List.mem_cons_of_mem _ (ih h)

theorem SMap.mem_ins {m : SMap α} {k : Nat} {v : α} {x : Nat × α} (h : x ∈ SMap.ins m k v) : x = (k, v) ∨ x ∈ m := by
  induction m with
  | nil => simpa [SMap.ins] using h
  | cons y r ih =>
    by_cases hy : k < y.1
    · simpa [SMap.ins, hy] using h
    · simp only [SMap.ins, hy, if_false, List.mem_cons] at h
      rcases h with h | h
      · simp [h]
      · rcases ih h with h | h
        · exact .inl h
        · exact .inr (List.mem_cons_of_mem _ h)

theorem SMap.mem_put {m : SMap α} {k : Nat} {v : α} {x : Nat × α} (h : x ∈ SMap.put m k v) :
    x = (k, v) ∨ x ∈ m :=
  (SMap.mem_ins h).imp_right SMap.mem_del

theorem KeysRise.cons_iff {x : Nat × α} {r : SMap α} :
    KeysRise (x :: r) ↔ (∀ y ∈ r, x.1 < y.1) ∧ KeysRise r := by
  simp [KeysRise]

theorem KeysRise.del {m : SMap α} (h : KeysRise m) (k : Nat) : KeysRise (SMap.del m k) := by
  induction m with
  | nil => exact h
  | cons x r ih =>
    rw [KeysRise.cons_iff] at h
    by_cases hx : x.1 = k
    · simpa [SMap.del, hx] using ih h.2
    · simp only [SMap.del, hx, if_false]
      exact KeysRise.cons_iff.2 ⟨fun y hy => h.1 y (SMap.mem_del hy), ih h.2⟩

theorem KeysRise.ins {m : SMap α} (h : KeysRise m) {k : Nat} (hk : ∀ x ∈ m, x.1 ≠ k) (v : α) :
    KeysRise (SMap.ins m k v) := by
  induction m with
  | nil => simp [SMap.ins, KeysRise]
  | cons x r ih =>
    have h' := KeysRise.cons_iff.1 h
    by_cases hx : k < x.1
    · simp only [SMap.ins, hx, if_true]
      refine KeysRise.cons_iff.2 ⟨?_, h⟩
      intro y hy
      rcases List.mem_cons.1 hy with rfl | hy
      · exact hx
      · exact Nat.lt_trans hx (h'.1 y hy)
    · have hne := hk x (by simp)
      simp only [SMap.ins, hx, if_false]
      refine KeysRise.cons_iff.2 ⟨?_, ih h'.2 fun y hy => hk y (by simp [hy])⟩
      intro y hy
      rcases SMap.mem_ins hy with rfl | hy
      · show x.1 < k
        omega
      · exact h'.1 y hy

theorem KeysRise.put {m : SMap α} (h : KeysRise m) (k : Nat) (v : α) : KeysRise (SMap.put m k v) :=
  (h.del k).ins (SMap.del_ne m k) v

/-! Byte memories. -/

theorem Memory.read_write_same (d : Byte) (m : Memory) (a : Nat) (b : Byte) :
    Memory.read d (Memory.write d m a b) a = b := by
  by_cases h : b = d
  · simp [Memory.write, Memory.read, h, SMap.get_del_same]
  · simp [Memory.write, Memory.read, h]

theorem Memory.read_write_ne (d : Byte) (m : Memory) {a c : Nat} (b : Byte) (h : c ≠ a) :
    Memory.read d (Memory.write d m a b) c = Memory.read d m c := by
  by_cases hb : b = d
  · simp [Memory.write, Memory.read, hb, SMap.get_del_ne _ m h]
  · simp [Memory.write, Memory.read, hb, SMap.get_put_ne _ m b h]

/-- A byte outside the stored range reads as before. -/
theorem Memory.read_writeN_outside (d : Byte) (l : List Byte) (m : Memory) {a c : Nat} (h : c < a ∨ a + l.length ≤ c) :
    Memory.read d (Memory.writeN d m a l) c = Memory.read d m c := by
  induction l generalizing m a with
  | nil => rfl
  | cons b r ih =>
    simp only [List.length_cons] at h
    rw [Memory.writeN, ih _ (by omega), Memory.read_write_ne d m b (by omega)]

/-- A byte inside the stored range reads as stored. -/
theorem Memory.read_writeN_inside (d : Byte) (l : List Byte) (m : Memory) {a i : Nat} (h : i < l.length) :
    Memory.read d (Memory.writeN d m a l) (a + i) = l[i] := by
  induction l generalizing m a i with
  | nil => simp at h
  | cons b r ih =>
    cases i with
    | zero =>
      rw [Memory.writeN, Memory.read_writeN_outside d r _ (by omega)]
      simpa using Memory.read_write_same d m a b
    | succ n =>
      have hn : n < r.length := by simpa using h
      have := ih (Memory.write d m a b) (a := a + 1) hn
      simpa [Memory.writeN, Nat.add_assoc, Nat.add_comm 1 n] using this

theorem Memory.read_clear_outside (d : Byte) (m : Memory) {a n c : Nat} (h : c < a ∨ a + n ≤ c) :
    Memory.read d (Memory.clear m a n) c = Memory.read d m c := by
  unfold Memory.read Memory.clear
  induction m with
  | nil => rfl
  | cons x r ih =>
    by_cases hx : a ≤ x.1 ∧ x.1 < a + n
    · have hc : x.1 ≠ c := by omega
      rw [List.filter_cons_of_neg (by simp [hx]), ih]
      simp [SMap.get, hc]
    · rw [List.filter_cons_of_pos (by simp; omega)]
      by_cases hc : x.1 = c
      · simp [SMap.get, hc]
      · simp only [SMap.get, hc, if_false]
        exact ih

/-- The canonical form as a property of the list. -/
theorem Memory.wfFrom_iff (d : Byte) (lo : Option Nat) (m : Memory) :
    Memory.wfFrom d lo m = true ↔
      KeysRise m ∧ (∀ x ∈ m, x.2 ≠ d) ∧ ∀ l, lo = some l → ∀ x ∈ m, l < x.1 := by
  induction m generalizing lo with
  | nil => simp [Memory.wfFrom, KeysRise]
  | cons x r ih =>
    have e : Memory.wfFrom d lo (x :: r) = true ↔
        (∀ l, lo = some l → l < x.1) ∧ x.2 ≠ d ∧ Memory.wfFrom d (some x.1) r = true := by
      obtain ⟨a, b⟩ := x
      cases lo <;> simp [Memory.wfFrom, and_assoc]
    rw [e, ih, KeysRise.cons_iff]
    constructor
    · rintro ⟨h1, h2, h3, h4, h5⟩
      refine ⟨⟨h5 _ rfl, h3⟩, ?_, ?_⟩
      · intro y hy
        rcases List.mem_cons.1 hy with rfl | hy
        · exact h2
        · exact h4 y hy
      · intro l hl y hy
        rcases List.mem_cons.1 hy with rfl | hy
        · exact h1 l hl
        · exact Nat.lt_trans (h1 l hl) (h5 _ rfl y hy)
    · rintro ⟨⟨h1, h2⟩, h3, h4⟩
      refine ⟨fun l hl => h4 l hl x (by simp), h3 x (by simp), h2, fun y hy => h3 y (by simp [hy]), ?_⟩
      intro l hl y hy
      cases hl
      exact h1 y hy

theorem Memory.wf_iff (d : Byte) (m : Memory) : Memory.wf d m = true ↔ KeysRise m ∧ ∀ x ∈ m, x.2 ≠ d := by
  simp [Memory.wf, Memory.wfFrom_iff]

@[simp] theorem Memory.wf_nil (d : Byte) : Memory.wf d [] = true := rfl

theorem Memory.wf_write {d : Byte} {m : Memory} (h : Memory.wf d m = true) (a : Nat) (b : Byte) :
    Memory.wf d (Memory.write d m a b) = true := by
  rw [Memory.wf_iff] at h ⊢
  by_cases hb : b = d
  · simp only [Memory.write, hb, if_true]
    exact ⟨h.1.del a, fun x hx => h.2 x (SMap.mem_del hx)⟩
  · simp only [Memory.write, hb, if_false]
    refine ⟨h.1.put a b, fun x hx => ?_⟩
    rcases SMap.mem_put hx with rfl | hx
    · exact hb
    · exact h.2 x hx

theorem Memory.wf_writeN {d : Byte} (l : List Byte) {m : Memory} (h : Memory.wf d m = true) (a : Nat) :
    Memory.wf d (Memory.writeN d m a l) = true := by
  induction l generalizing m a with
  | nil => exact h
  | cons b r ih => exact ih (Memory.wf_write h a b) (a + 1)

theorem Memory.wf_clear {d : Byte} {m : Memory} (h : Memory.wf d m = true) (a n : Nat) :
    Memory.wf d (Memory.clear m a n) = true := by
  rw [Memory.wf_iff] at h ⊢
  refine ⟨?_, fun x hx => h.2 x (List.mem_of_mem_filter hx)⟩
  unfold KeysRise Memory.clear
  exact List.Pairwise.sublist (List.Sublist.map _ List.filter_sublist) h.1

theorem wf_orImage {a : Memory} (h : Memory.wf 0 a = true) (b : Memory) : Memory.wf 0 (orImage a b) = true := by
  unfold orImage
  induction b generalizing a with
  | nil => exact h
  | cons x r ih => exact ih (Memory.wf_write h _ _)

end Sys2Proof.Machine
end

