-- ==== Sys2Proof/Laws/State.lean ====
section
/-! SUPPORT. What each named write of the state leaves as it was, and what it writes: one lemma per field and per reader for
every write, true by unfolding, so that no later proof unfolds a record update. -/

namespace Sys2Proof.Machine.State

variable (s : State)

/-! setLane. -/

@[simp] theorem updLane_eq (k f) : s.updLane k f = s.setLane k (f (s.lane k)) := rfl
@[simp] theorem setLane_pending (k v) : (s.setLane k v).pending = s.pending := rfl
@[simp] theorem setLane_now (k v) : (s.setLane k v).now = s.now := rfl
@[simp] theorem setLane_freeCount (k v) : (s.setLane k v).freeCount = s.freeCount := rfl
@[simp] theorem setLane_out (k v) : (s.setLane k v).out = s.out := rfl
@[simp] theorem setLane_dev (k v) : (s.setLane k v).dev = s.dev := rfl
@[simp] theorem setLane_chans (k v) : (s.setLane k v).chans = s.chans := rfl
@[simp] theorem setLane_tsets (k v) : (s.setLane k v).tsets = s.tsets := rfl
@[simp] theorem setLane_acts (k v) : (s.setLane k v).acts = s.acts := rfl
@[simp] theorem setLane_taps (k v) : (s.setLane k v).taps = s.taps := rfl
@[simp] theorem setLane_engines (k v) : (s.setLane k v).engines = s.engines := rfl
@[simp] theorem setLane_flags (k v) : (s.setLane k v).flags = s.flags := rfl
@[simp] theorem setLane_pins (k v) : (s.setLane k v).pins = s.pins := rfl
@[simp] theorem setLane_regions (k v) : (s.setLane k v).regions = s.regions := rfl
@[simp] theorem setLane_objs (k v) : (s.setLane k v).objs = s.objs := rfl
@[simp] theorem setLane_fc (k v) : (s.setLane k v).fc = s.fc := rfl
@[simp] theorem setLane_tims (k v) : (s.setLane k v).tims = s.tims := rfl
@[simp] theorem setLane_ref (k v) : (s.setLane k v).ref = s.ref := rfl
@[simp] theorem setLane_groups (k v) : (s.setLane k v).groups = s.groups := rfl
@[simp] theorem setLane_trg (k v) : (s.setLane k v).trg = s.trg := rfl
@[simp] theorem setLane_acqs (k v) : (s.setLane k v).acqs = s.acqs := rfl
@[simp] theorem setLane_log (k v) : (s.setLane k v).log = s.log := rfl
@[simp] theorem setLane_cal (k v) : (s.setLane k v).cal = s.cal := rfl
@[simp] theorem setLane_calLanes (k v) : (s.setLane k v).calLanes = s.calLanes := rfl
@[simp] theorem setLane_ez (k v) : (s.setLane k v).ez = s.ez := rfl
@[simp] theorem setLane_ports (k v) : (s.setLane k v).ports = s.ports := rfl
@[simp] theorem setLane_ea (k v) : (s.setLane k v).ea = s.ea := rfl
@[simp] theorem setLane_host (k v) : (s.setLane k v).host = s.host := rfl
@[simp] theorem setLane_ump (k v) : (s.setLane k v).ump = s.ump := rfl
@[simp] theorem setLane_umpSrcs (k v) : (s.setLane k v).umpSrcs = s.umpSrcs := rfl
@[simp] theorem setLane_bh (k v) : (s.setLane k v).bh = s.bh := rfl
@[simp] theorem setLane_power (k v) : (s.setLane k v).power = s.power := rfl
@[simp] theorem setLane_rs (k v) : (s.setLane k v).rs = s.rs := rfl
@[simp] theorem setLane_sns (k v) : (s.setLane k v).sns = s.sns := rfl
@[simp] theorem setLane_lane (j k v) :
    (s.setLane k v).lane j = if j = k then v else s.lane j := SMap.get_put _ _ _ _ _
@[simp] theorem setLane_chan (k v j) : (s.setLane k v).chan j = s.chan j := rfl
@[simp] theorem setLane_tset (k v j) : (s.setLane k v).tset j = s.tset j := rfl
@[simp] theorem setLane_act (k v j) : (s.setLane k v).act j = s.act j := rfl
@[simp] theorem setLane_tap (k v j) : (s.setLane k v).tap j = s.tap j := rfl
@[simp] theorem setLane_eng (k v j) : (s.setLane k v).eng j = s.eng j := rfl
@[simp] theorem setLane_region (k v j) : (s.setLane k v).region j = s.region j := rfl
@[simp] theorem setLane_obj (k v j) : (s.setLane k v).obj j = s.obj j := rfl
@[simp] theorem setLane_tim (k v j) : (s.setLane k v).tim j = s.tim j := rfl
@[simp] theorem setLane_group (k v j) : (s.setLane k v).group j = s.group j := rfl
@[simp] theorem setLane_acq (k v j) : (s.setLane k v).acq j = s.acq j := rfl
@[simp] theorem setLane_calLane (k v j) : (s.setLane k v).calLane j = s.calLane j := rfl
@[simp] theorem setLane_port (k v j) : (s.setLane k v).port j = s.port j := rfl
@[simp] theorem setLane_src (k v j) : (s.setLane k v).src j = s.src j := rfl
@[simp] theorem setLane_sn (k v j) : (s.setLane k v).sn j = s.sn j := rfl
@[simp] theorem setLane_ctx (k v j) : (s.setLane k v).ctx j = s.ctx j := rfl
@[simp] theorem setLane_qp (k v j) : (s.setLane k v).qp j = s.qp j := rfl
@[simp] theorem setLane_lock (k v j) : (s.setLane k v).lock j = s.lock j := rfl
@[simp] theorem setLane_claim (k v j) : (s.setLane k v).claim j = s.claim j := rfl
@[simp] theorem setLane_geom (k v j) : (s.setLane k v).geom j = s.geom j := rfl
@[simp] theorem setLane_nv (k v j) : (s.setLane k v).nv j = s.nv j := rfl

/-! setChan. -/

@[simp] theorem updChan_eq (k f) : s.updChan k f = s.setChan k (f (s.chan k)) := rfl
@[simp] theorem setChan_pending (k v) : (s.setChan k v).pending = s.pending := rfl
@[simp] theorem setChan_now (k v) : (s.setChan k v).now = s.now := rfl
@[simp] theorem setChan_freeCount (k v) : (s.setChan k v).freeCount = s.freeCount := rfl
@[simp] theorem setChan_out (k v) : (s.setChan k v).out = s.out := rfl
@[simp] theorem setChan_dev (k v) : (s.setChan k v).dev = s.dev := rfl
@[simp] theorem setChan_lanes (k v) : (s.setChan k v).lanes = s.lanes := rfl
@[simp] theorem setChan_tsets (k v) : (s.setChan k v).tsets = s.tsets := rfl
@[simp] theorem setChan_acts (k v) : (s.setChan k v).acts = s.acts := rfl
@[simp] theorem setChan_taps (k v) : (s.setChan k v).taps = s.taps := rfl
@[simp] theorem setChan_engines (k v) : (s.setChan k v).engines = s.engines := rfl
@[simp] theorem setChan_flags (k v) : (s.setChan k v).flags = s.flags := rfl
@[simp] theorem setChan_pins (k v) : (s.setChan k v).pins = s.pins := rfl
@[simp] theorem setChan_regions (k v) : (s.setChan k v).regions = s.regions := rfl
@[simp] theorem setChan_objs (k v) : (s.setChan k v).objs = s.objs := rfl
@[simp] theorem setChan_fc (k v) : (s.setChan k v).fc = s.fc := rfl
@[simp] theorem setChan_tims (k v) : (s.setChan k v).tims = s.tims := rfl
@[simp] theorem setChan_ref (k v) : (s.setChan k v).ref = s.ref := rfl
@[simp] theorem setChan_groups (k v) : (s.setChan k v).groups = s.groups := rfl
@[simp] theorem setChan_trg (k v) : (s.setChan k v).trg = s.trg := rfl
@[simp] theorem setChan_acqs (k v) : (s.setChan k v).acqs = s.acqs := rfl
@[simp] theorem setChan_log (k v) : (s.setChan k v).log = s.log := rfl
@[simp] theorem setChan_cal (k v) : (s.setChan k v).cal = s.cal := rfl
@[simp] theorem setChan_calLanes (k v) : (s.setChan k v).calLanes = s.calLanes := rfl
@[simp] theorem setChan_ez (k v) : (s.setChan k v).ez = s.ez := rfl
@[simp] theorem setChan_ports (k v) : (s.setChan k v).ports = s.ports := rfl
@[simp] theorem setChan_ea (k v) : (s.setChan k v).ea = s.ea := rfl
@[simp] theorem setChan_host (k v) : (s.setChan k v).host = s.host := rfl
@[simp] theorem setChan_ump (k v) : (s.setChan k v).ump = s.ump := rfl
@[simp] theorem setChan_umpSrcs (k v) : (s.setChan k v).umpSrcs = s.umpSrcs := rfl
@[simp] theorem setChan_bh (k v) : (s.setChan k v).bh = s.bh := rfl
@[simp] theorem setChan_power (k v) : (s.setChan k v).power = s.power := rfl
@[simp] theorem setChan_rs (k v) : (s.setChan k v).rs = s.rs := rfl
@[simp] theorem setChan_sns (k v) : (s.setChan k v).sns = s.sns := rfl
@[simp] theorem setChan_chan (j k v) :
    (s.setChan k v).chan j = if j = k then v else s.chan j := SMap.get_put _ _ _ _ _
@[simp] theorem setChan_lane (k v j) : (s.setChan k v).lane j = s.lane j := rfl
@[simp] theorem setChan_tset (k v j) : (s.setChan k v).tset j = s.tset j := rfl
@[simp] theorem setChan_act (k v j) : (s.setChan k v).act j = s.act j := rfl
@[simp] theorem setChan_tap (k v j) : (s.setChan k v).tap j = s.tap j := rfl
@[simp] theorem setChan_eng (k v j) : (s.setChan k v).eng j = s.eng j := rfl
@[simp] theorem setChan_region (k v j) : (s.setChan k v).region j = s.region j := rfl
@[simp] theorem setChan_obj (k v j) : (s.setChan k v).obj j = s.obj j := rfl
@[simp] theorem setChan_tim (k v j) : (s.setChan k v).tim j = s.tim j := rfl
@[simp] theorem setChan_group (k v j) : (s.setChan k v).group j = s.group j := rfl
@[simp] theorem setChan_acq (k v j) : (s.setChan k v).acq j = s.acq j := rfl
@[simp] theorem setChan_calLane (k v j) : (s.setChan k v).calLane j = s.calLane j := rfl
@[simp] theorem setChan_port (k v j) : (s.setChan k v).port j = s.port j := rfl
@[simp] theorem setChan_src (k v j) : (s.setChan k v).src j = s.src j := rfl
@[simp] theorem setChan_sn (k v j) : (s.setChan k v).sn j = s.sn j := rfl
@[simp] theorem setChan_ctx (k v j) : (s.setChan k v).ctx j = s.ctx j := rfl
@[simp] theorem setChan_qp (k v j) : (s.setChan k v).qp j = s.qp j := rfl
@[simp] theorem setChan_lock (k v j) : (s.setChan k v).lock j = s.lock j := rfl
@[simp] theorem setChan_claim (k v j) : (s.setChan k v).claim j = s.claim j := rfl
@[simp] theorem setChan_geom (k v j) : (s.setChan k v).geom j = s.geom j := rfl
@[simp] theorem setChan_nv (k v j) : (s.setChan k v).nv j = s.nv j := rfl

/-! setTset. -/

@[simp] theorem updTset_eq (k f) : s.updTset k f = s.setTset k (f (s.tset k)) := rfl
@[simp] theorem setTset_pending (k v) : (s.setTset k v).pending = s.pending := rfl
@[simp] theorem setTset_now (k v) : (s.setTset k v).now = s.now := rfl
@[simp] theorem setTset_freeCount (k v) : (s.setTset k v).freeCount = s.freeCount := rfl
@[simp] theorem setTset_out (k v) : (s.setTset k v).out = s.out := rfl
@[simp] theorem setTset_dev (k v) : (s.setTset k v).dev = s.dev := rfl
@[simp] theorem setTset_lanes (k v) : (s.setTset k v).lanes = s.lanes := rfl
@[simp] theorem setTset_chans (k v) : (s.setTset k v).chans = s.chans := rfl
@[simp] theorem setTset_acts (k v) : (s.setTset k v).acts = s.acts := rfl
@[simp] theorem setTset_taps (k v) : (s.setTset k v).taps = s.taps := rfl
@[simp] theorem setTset_engines (k v) : (s.setTset k v).engines = s.engines := rfl
@[simp] theorem setTset_flags (k v) : (s.setTset k v).flags = s.flags := rfl
@[simp] theorem setTset_pins (k v) : (s.setTset k v).pins = s.pins := rfl
@[simp] theorem setTset_regions (k v) : (s.setTset k v).regions = s.regions := rfl
@[simp] theorem setTset_objs (k v) : (s.setTset k v).objs = s.objs := rfl
@[simp] theorem setTset_fc (k v) : (s.setTset k v).fc = s.fc := rfl
@[simp] theorem setTset_tims (k v) : (s.setTset k v).tims = s.tims := rfl
@[simp] theorem setTset_ref (k v) : (s.setTset k v).ref = s.ref := rfl
@[simp] theorem setTset_groups (k v) : (s.setTset k v).groups = s.groups := rfl
@[simp] theorem setTset_trg (k v) : (s.setTset k v).trg = s.trg := rfl
@[simp] theorem setTset_acqs (k v) : (s.setTset k v).acqs = s.acqs := rfl
@[simp] theorem setTset_log (k v) : (s.setTset k v).log = s.log := rfl
@[simp] theorem setTset_cal (k v) : (s.setTset k v).cal = s.cal := rfl
@[simp] theorem setTset_calLanes (k v) : (s.setTset k v).calLanes = s.calLanes := rfl
@[simp] theorem setTset_ez (k v) : (s.setTset k v).ez = s.ez := rfl
@[simp] theorem setTset_ports (k v) : (s.setTset k v).ports = s.ports := rfl
@[simp] theorem setTset_ea (k v) : (s.setTset k v).ea = s.ea := rfl
@[simp] theorem setTset_host (k v) : (s.setTset k v).host = s.host := rfl
@[simp] theorem setTset_ump (k v) : (s.setTset k v).ump = s.ump := rfl
@[simp] theorem setTset_umpSrcs (k v) : (s.setTset k v).umpSrcs = s.umpSrcs := rfl
@[simp] theorem setTset_bh (k v) : (s.setTset k v).bh = s.bh := rfl
@[simp] theorem setTset_power (k v) : (s.setTset k v).power = s.power := rfl
@[simp] theorem setTset_rs (k v) : (s.setTset k v).rs = s.rs := rfl
@[simp] theorem setTset_sns (k v) : (s.setTset k v).sns = s.sns := rfl
@[simp] theorem setTset_tset (j k v) :
    (s.setTset k v).tset j = if j = k then v else s.tset j := SMap.get_put _ _ _ _ _
@[simp] theorem setTset_lane (k v j) : (s.setTset k v).lane j = s.lane j := rfl
@[simp] theorem setTset_chan (k v j) : (s.setTset k v).chan j = s.chan j := rfl
@[simp] theorem setTset_act (k v j) : (s.setTset k v).act j = s.act j := rfl
@[simp] theorem setTset_tap (k v j) : (s.setTset k v).tap j = s.tap j := rfl
@[simp] theorem setTset_eng (k v j) : (s.setTset k v).eng j = s.eng j := rfl
@[simp] theorem setTset_region (k v j) : (s.setTset k v).region j = s.region j := rfl
@[simp] theorem setTset_obj (k v j) : (s.setTset k v).obj j = s.obj j := rfl
@[simp] theorem setTset_tim (k v j) : (s.setTset k v).tim j = s.tim j := rfl
@[simp] theorem setTset_group (k v j) : (s.setTset k v).group j = s.group j := rfl
@[simp] theorem setTset_acq (k v j) : (s.setTset k v).acq j = s.acq j := rfl
@[simp] theorem setTset_calLane (k v j) : (s.setTset k v).calLane j = s.calLane j := rfl
@[simp] theorem setTset_port (k v j) : (s.setTset k v).port j = s.port j := rfl
@[simp] theorem setTset_src (k v j) : (s.setTset k v).src j = s.src j := rfl
@[simp] theorem setTset_sn (k v j) : (s.setTset k v).sn j = s.sn j := rfl
@[simp] theorem setTset_ctx (k v j) : (s.setTset k v).ctx j = s.ctx j := rfl
@[simp] theorem setTset_qp (k v j) : (s.setTset k v).qp j = s.qp j := rfl
@[simp] theorem setTset_lock (k v j) : (s.setTset k v).lock j = s.lock j := rfl
@[simp] theorem setTset_claim (k v j) : (s.setTset k v).claim j = s.claim j := rfl
@[simp] theorem setTset_geom (k v j) : (s.setTset k v).geom j = s.geom j := rfl
@[simp] theorem setTset_nv (k v j) : (s.setTset k v).nv j = s.nv j := rfl

/-! setAct. -/

@[simp] theorem updAct_eq (k f) : s.updAct k f = s.setAct k (f (s.act k)) := rfl
@[simp] theorem setAct_pending (k v) : (s.setAct k v).pending = s.pending := rfl
@[simp] theorem setAct_now (k v) : (s.setAct k v).now = s.now := rfl
@[simp] theorem setAct_freeCount (k v) : (s.setAct k v).freeCount = s.freeCount := rfl
@[simp] theorem setAct_out (k v) : (s.setAct k v).out = s.out := rfl
@[simp] theorem setAct_dev (k v) : (s.setAct k v).dev = s.dev := rfl
@[simp] theorem setAct_lanes (k v) : (s.setAct k v).lanes = s.lanes := rfl
@[simp] theorem setAct_chans (k v) : (s.setAct k v).chans = s.chans := rfl
@[simp] theorem setAct_tsets (k v) : (s.setAct k v).tsets = s.tsets := rfl
@[simp] theorem setAct_taps (k v) : (s.setAct k v).taps = s.taps := rfl
@[simp] theorem setAct_engines (k v) : (s.setAct k v).engines = s.engines := rfl
@[simp] theorem setAct_flags (k v) : (s.setAct k v).flags = s.flags := rfl
@[simp] theorem setAct_pins (k v) : (s.setAct k v).pins = s.pins := rfl
@[simp] theorem setAct_regions (k v) : (s.setAct k v).regions = s.regions := rfl
@[simp] theorem setAct_objs (k v) : (s.setAct k v).objs = s.objs := rfl
@[simp] theorem setAct_fc (k v) : (s.setAct k v).fc = s.fc := rfl
@[simp] theorem setAct_tims (k v) : (s.setAct k v).tims = s.tims := rfl
@[simp] theorem setAct_ref (k v) : (s.setAct k v).ref = s.ref := rfl
@[simp] theorem setAct_groups (k v) : (s.setAct k v).groups = s.groups := rfl
@[simp] theorem setAct_trg (k v) : (s.setAct k v).trg = s.trg := rfl
@[simp] theorem setAct_acqs (k v) : (s.setAct k v).acqs = s.acqs := rfl
@[simp] theorem setAct_log (k v) : (s.setAct k v).log = s.log := rfl
@[simp] theorem setAct_cal (k v) : (s.setAct k v).cal = s.cal := rfl
@[simp] theorem setAct_calLanes (k v) : (s.setAct k v).calLanes = s.calLanes := rfl
@[simp] theorem setAct_ez (k v) : (s.setAct k v).ez = s.ez := rfl
@[simp] theorem setAct_ports (k v) : (s.setAct k v).ports = s.ports := rfl
@[simp] theorem setAct_ea (k v) : (s.setAct k v).ea = s.ea := rfl
@[simp] theorem setAct_host (k v) : (s.setAct k v).host = s.host := rfl
@[simp] theorem setAct_ump (k v) : (s.setAct k v).ump = s.ump := rfl
@[simp] theorem setAct_umpSrcs (k v) : (s.setAct k v).umpSrcs = s.umpSrcs := rfl
@[simp] theorem setAct_bh (k v) : (s.setAct k v).bh = s.bh := rfl
@[simp] theorem setAct_power (k v) : (s.setAct k v).power = s.power := rfl
@[simp] theorem setAct_rs (k v) : (s.setAct k v).rs = s.rs := rfl
@[simp] theorem setAct_sns (k v) : (s.setAct k v).sns = s.sns := rfl
@[simp] theorem setAct_act (j k v) :
    (s.setAct k v).act j = if j = k then v else s.act j := SMap.get_put _ _ _ _ _
@[simp] theorem setAct_lane (k v j) : (s.setAct k v).lane j = s.lane j := rfl
@[simp] theorem setAct_chan (k v j) : (s.setAct k v).chan j = s.chan j := rfl
@[simp] theorem setAct_tset (k v j) : (s.setAct k v).tset j = s.tset j := rfl
@[simp] theorem setAct_tap (k v j) : (s.setAct k v).tap j = s.tap j := rfl
@[simp] theorem setAct_eng (k v j) : (s.setAct k v).eng j = s.eng j := rfl
@[simp] theorem setAct_region (k v j) : (s.setAct k v).region j = s.region j := rfl
@[simp] theorem setAct_obj (k v j) : (s.setAct k v).obj j = s.obj j := rfl
@[simp] theorem setAct_tim (k v j) : (s.setAct k v).tim j = s.tim j := rfl
@[simp] theorem setAct_group (k v j) : (s.setAct k v).group j = s.group j := rfl
@[simp] theorem setAct_acq (k v j) : (s.setAct k v).acq j = s.acq j := rfl
@[simp] theorem setAct_calLane (k v j) : (s.setAct k v).calLane j = s.calLane j := rfl
@[simp] theorem setAct_port (k v j) : (s.setAct k v).port j = s.port j := rfl
@[simp] theorem setAct_src (k v j) : (s.setAct k v).src j = s.src j := rfl
@[simp] theorem setAct_sn (k v j) : (s.setAct k v).sn j = s.sn j := rfl
@[simp] theorem setAct_ctx (k v j) : (s.setAct k v).ctx j = s.ctx j := rfl
@[simp] theorem setAct_qp (k v j) : (s.setAct k v).qp j = s.qp j := rfl
@[simp] theorem setAct_lock (k v j) : (s.setAct k v).lock j = s.lock j := rfl
@[simp] theorem setAct_claim (k v j) : (s.setAct k v).claim j = s.claim j := rfl
@[simp] theorem setAct_geom (k v j) : (s.setAct k v).geom j = s.geom j := rfl
@[simp] theorem setAct_nv (k v j) : (s.setAct k v).nv j = s.nv j := rfl

/-! setTap. -/

@[simp] theorem updTap_eq (k f) : s.updTap k f = s.setTap k (f (s.tap k)) := rfl
@[simp] theorem setTap_pending (k v) : (s.setTap k v).pending = s.pending := rfl
@[simp] theorem setTap_now (k v) : (s.setTap k v).now = s.now := rfl
@[simp] theorem setTap_freeCount (k v) : (s.setTap k v).freeCount = s.freeCount := rfl
@[simp] theorem setTap_out (k v) : (s.setTap k v).out = s.out := rfl
@[simp] theorem setTap_dev (k v) : (s.setTap k v).dev = s.dev := rfl
@[simp] theorem setTap_lanes (k v) : (s.setTap k v).lanes = s.lanes := rfl
@[simp] theorem setTap_chans (k v) : (s.setTap k v).chans = s.chans := rfl
@[simp] theorem setTap_tsets (k v) : (s.setTap k v).tsets = s.tsets := rfl
@[simp] theorem setTap_acts (k v) : (s.setTap k v).acts = s.acts := rfl
@[simp] theorem setTap_engines (k v) : (s.setTap k v).engines = s.engines := rfl
@[simp] theorem setTap_flags (k v) : (s.setTap k v).flags = s.flags := rfl
@[simp] theorem setTap_pins (k v) : (s.setTap k v).pins = s.pins := rfl
@[simp] theorem setTap_regions (k v) : (s.setTap k v).regions = s.regions := rfl
@[simp] theorem setTap_objs (k v) : (s.setTap k v).objs = s.objs := rfl
@[simp] theorem setTap_fc (k v) : (s.setTap k v).fc = s.fc := rfl
@[simp] theorem setTap_tims (k v) : (s.setTap k v).tims = s.tims := rfl
@[simp] theorem setTap_ref (k v) : (s.setTap k v).ref = s.ref := rfl
@[simp] theorem setTap_groups (k v) : (s.setTap k v).groups = s.groups := rfl
@[simp] theorem setTap_trg (k v) : (s.setTap k v).trg = s.trg := rfl
@[simp] theorem setTap_acqs (k v) : (s.setTap k v).acqs = s.acqs := rfl
@[simp] theorem setTap_log (k v) : (s.setTap k v).log = s.log := rfl
@[simp] theorem setTap_cal (k v) : (s.setTap k v).cal = s.cal := rfl
@[simp] theorem setTap_calLanes (k v) : (s.setTap k v).calLanes = s.calLanes := rfl
@[simp] theorem setTap_ez (k v) : (s.setTap k v).ez = s.ez := rfl
@[simp] theorem setTap_ports (k v) : (s.setTap k v).ports = s.ports := rfl
@[simp] theorem setTap_ea (k v) : (s.setTap k v).ea = s.ea := rfl
@[simp] theorem setTap_host (k v) : (s.setTap k v).host = s.host := rfl
@[simp] theorem setTap_ump (k v) : (s.setTap k v).ump = s.ump := rfl
@[simp] theorem setTap_umpSrcs (k v) : (s.setTap k v).umpSrcs = s.umpSrcs := rfl
@[simp] theorem setTap_bh (k v) : (s.setTap k v).bh = s.bh := rfl
@[simp] theorem setTap_power (k v) : (s.setTap k v).power = s.power := rfl
@[simp] theorem setTap_rs (k v) : (s.setTap k v).rs = s.rs := rfl
@[simp] theorem setTap_sns (k v) : (s.setTap k v).sns = s.sns := rfl
@[simp] theorem setTap_tap (j k v) :
    (s.setTap k v).tap j = if j = k then v else s.tap j := SMap.get_put _ _ _ _ _
@[simp] theorem setTap_lane (k v j) : (s.setTap k v).lane j = s.lane j := rfl
@[simp] theorem setTap_chan (k v j) : (s.setTap k v).chan j = s.chan j := rfl
@[simp] theorem setTap_tset (k v j) : (s.setTap k v).tset j = s.tset j := rfl
@[simp] theorem setTap_act (k v j) : (s.setTap k v).act j = s.act j := rfl
@[simp] theorem setTap_eng (k v j) : (s.setTap k v).eng j = s.eng j := rfl
@[simp] theorem setTap_region (k v j) : (s.setTap k v).region j = s.region j := rfl
@[simp] theorem setTap_obj (k v j) : (s.setTap k v).obj j = s.obj j := rfl
@[simp] theorem setTap_tim (k v j) : (s.setTap k v).tim j = s.tim j := rfl
@[simp] theorem setTap_group (k v j) : (s.setTap k v).group j = s.group j := rfl
@[simp] theorem setTap_acq (k v j) : (s.setTap k v).acq j = s.acq j := rfl
@[simp] theorem setTap_calLane (k v j) : (s.setTap k v).calLane j = s.calLane j := rfl
@[simp] theorem setTap_port (k v j) : (s.setTap k v).port j = s.port j := rfl
@[simp] theorem setTap_src (k v j) : (s.setTap k v).src j = s.src j := rfl
@[simp] theorem setTap_sn (k v j) : (s.setTap k v).sn j = s.sn j := rfl
@[simp] theorem setTap_ctx (k v j) : (s.setTap k v).ctx j = s.ctx j := rfl
@[simp] theorem setTap_qp (k v j) : (s.setTap k v).qp j = s.qp j := rfl
@[simp] theorem setTap_lock (k v j) : (s.setTap k v).lock j = s.lock j := rfl
@[simp] theorem setTap_claim (k v j) : (s.setTap k v).claim j = s.claim j := rfl
@[simp] theorem setTap_geom (k v j) : (s.setTap k v).geom j = s.geom j := rfl
@[simp] theorem setTap_nv (k v j) : (s.setTap k v).nv j = s.nv j := rfl

/-! setEng. -/

@[simp] theorem updEng_eq (k f) : s.updEng k f = s.setEng k (f (s.eng k)) := rfl
@[simp] theorem setEng_pending (k v) : (s.setEng k v).pending = s.pending := rfl
@[simp] theorem setEng_now (k v) : (s.setEng k v).now = s.now := rfl
@[simp] theorem setEng_freeCount (k v) : (s.setEng k v).freeCount = s.freeCount := rfl
@[simp] theorem setEng_out (k v) : (s.setEng k v).out = s.out := rfl
@[simp] theorem setEng_dev (k v) : (s.setEng k v).dev = s.dev := rfl
@[simp] theorem setEng_lanes (k v) : (s.setEng k v).lanes = s.lanes := rfl
@[simp] theorem setEng_chans (k v) : (s.setEng k v).chans = s.chans := rfl
@[simp] theorem setEng_tsets (k v) : (s.setEng k v).tsets = s.tsets := rfl
@[simp] theorem setEng_acts (k v) : (s.setEng k v).acts = s.acts := rfl
@[simp] theorem setEng_taps (k v) : (s.setEng k v).taps = s.taps := rfl
@[simp] theorem setEng_flags (k v) : (s.setEng k v).flags = s.flags := rfl
@[simp] theorem setEng_pins (k v) : (s.setEng k v).pins = s.pins := rfl
@[simp] theorem setEng_regions (k v) : (s.setEng k v).regions = s.regions := rfl
@[simp] theorem setEng_objs (k v) : (s.setEng k v).objs = s.objs := rfl
@[simp] theorem setEng_fc (k v) : (s.setEng k v).fc = s.fc := rfl
@[simp] theorem setEng_tims (k v) : (s.setEng k v).tims = s.tims := rfl
@[simp] theorem setEng_ref (k v) : (s.setEng k v).ref = s.ref := rfl
@[simp] theorem setEng_groups (k v) : (s.setEng k v).groups = s.groups := rfl
@[simp] theorem setEng_trg (k v) : (s.setEng k v).trg = s.trg := rfl
@[simp] theorem setEng_acqs (k v) : (s.setEng k v).acqs = s.acqs := rfl
@[simp] theorem setEng_log (k v) : (s.setEng k v).log = s.log := rfl
@[simp] theorem setEng_cal (k v) : (s.setEng k v).cal = s.cal := rfl
@[simp] theorem setEng_calLanes (k v) : (s.setEng k v).calLanes = s.calLanes := rfl
@[simp] theorem setEng_ez (k v) : (s.setEng k v).ez = s.ez := rfl
@[simp] theorem setEng_ports (k v) : (s.setEng k v).ports = s.ports := rfl
@[simp] theorem setEng_ea (k v) : (s.setEng k v).ea = s.ea := rfl
@[simp] theorem setEng_host (k v) : (s.setEng k v).host = s.host := rfl
@[simp] theorem setEng_ump (k v) : (s.setEng k v).ump = s.ump := rfl
@[simp] theorem setEng_umpSrcs (k v) : (s.setEng k v).umpSrcs = s.umpSrcs := rfl
@[simp] theorem setEng_bh (k v) : (s.setEng k v).bh = s.bh := rfl
@[simp] theorem setEng_power (k v) : (s.setEng k v).power = s.power := rfl
@[simp] theorem setEng_rs (k v) : (s.setEng k v).rs = s.rs := rfl
@[simp] theorem setEng_sns (k v) : (s.setEng k v).sns = s.sns := rfl
@[simp] theorem setEng_eng (j k v) :
    (s.setEng k v).eng j = if j = k then v else s.eng j := SMap.get_put _ _ _ _ _
@[simp] theorem setEng_lane (k v j) : (s.setEng k v).lane j = s.lane j := rfl
@[simp] theorem setEng_chan (k v j) : (s.setEng k v).chan j = s.chan j := rfl
@[simp] theorem setEng_tset (k v j) : (s.setEng k v).tset j = s.tset j := rfl
@[simp] theorem setEng_act (k v j) : (s.setEng k v).act j = s.act j := rfl
@[simp] theorem setEng_tap (k v j) : (s.setEng k v).tap j = s.tap j := rfl
@[simp] theorem setEng_region (k v j) : (s.setEng k v).region j = s.region j := rfl
@[simp] theorem setEng_obj (k v j) : (s.setEng k v).obj j = s.obj j := rfl
@[simp] theorem setEng_tim (k v j) : (s.setEng k v).tim j = s.tim j := rfl
@[simp] theorem setEng_group (k v j) : (s.setEng k v).group j = s.group j := rfl
@[simp] theorem setEng_acq (k v j) : (s.setEng k v).acq j = s.acq j := rfl
@[simp] theorem setEng_calLane (k v j) : (s.setEng k v).calLane j = s.calLane j := rfl
@[simp] theorem setEng_port (k v j) : (s.setEng k v).port j = s.port j := rfl
@[simp] theorem setEng_src (k v j) : (s.setEng k v).src j = s.src j := rfl
@[simp] theorem setEng_sn (k v j) : (s.setEng k v).sn j = s.sn j := rfl
@[simp] theorem setEng_ctx (k v j) : (s.setEng k v).ctx j = s.ctx j := rfl
@[simp] theorem setEng_qp (k v j) : (s.setEng k v).qp j = s.qp j := rfl
@[simp] theorem setEng_lock (k v j) : (s.setEng k v).lock j = s.lock j := rfl
@[simp] theorem setEng_claim (k v j) : (s.setEng k v).claim j = s.claim j := rfl
@[simp] theorem setEng_geom (k v j) : (s.setEng k v).geom j = s.geom j := rfl
@[simp] theorem setEng_nv (k v j) : (s.setEng k v).nv j = s.nv j := rfl

/-! setRegion. -/

@[simp] theorem updRegion_eq (k f) : s.updRegion k f = s.setRegion k (f (s.region k)) := rfl
@[simp] theorem setRegion_pending (k v) : (s.setRegion k v).pending = s.pending := rfl
@[simp] theorem setRegion_now (k v) : (s.setRegion k v).now = s.now := rfl
@[simp] theorem setRegion_freeCount (k v) : (s.setRegion k v).freeCount = s.freeCount := rfl
@[simp] theorem setRegion_out (k v) : (s.setRegion k v).out = s.out := rfl
@[simp] theorem setRegion_dev (k v) : (s.setRegion k v).dev = s.dev := rfl
@[simp] theorem setRegion_lanes (k v) : (s.setRegion k v).lanes = s.lanes := rfl
@[simp] theorem setRegion_chans (k v) : (s.setRegion k v).chans = s.chans := rfl
@[simp] theorem setRegion_tsets (k v) : (s.setRegion k v).tsets = s.tsets := rfl
@[simp] theorem setRegion_acts (k v) : (s.setRegion k v).acts = s.acts := rfl
@[simp] theorem setRegion_taps (k v) : (s.setRegion k v).taps = s.taps := rfl
@[simp] theorem setRegion_engines (k v) : (s.setRegion k v).engines = s.engines := rfl
@[simp] theorem setRegion_flags (k v) : (s.setRegion k v).flags = s.flags := rfl
@[simp] theorem setRegion_pins (k v) : (s.setRegion k v).pins = s.pins := rfl
@[simp] theorem setRegion_objs (k v) : (s.setRegion k v).objs = s.objs := rfl
@[simp] theorem setRegion_fc (k v) : (s.setRegion k v).fc = s.fc := rfl
@[simp] theorem setRegion_tims (k v) : (s.setRegion k v).tims = s.tims := rfl
@[simp] theorem setRegion_ref (k v) : (s.setRegion k v).ref = s.ref := rfl
@[simp] theorem setRegion_groups (k v) : (s.setRegion k v).groups = s.groups := rfl
@[simp] theorem setRegion_trg (k v) : (s.setRegion k v).trg = s.trg := rfl
@[simp] theorem setRegion_acqs (k v) : (s.setRegion k v).acqs = s.acqs := rfl
@[simp] theorem setRegion_log (k v) : (s.setRegion k v).log = s.log := rfl
@[simp] theorem setRegion_cal (k v) : (s.setRegion k v).cal = s.cal := rfl
@[simp] theorem setRegion_calLanes (k v) : (s.setRegion k v).calLanes = s.calLanes := rfl
@[simp] theorem setRegion_ez (k v) : (s.setRegion k v).ez = s.ez := rfl
@[simp] theorem setRegion_ports (k v) : (s.setRegion k v).ports = s.ports := rfl
@[simp] theorem setRegion_ea (k v) : (s.setRegion k v).ea = s.ea := rfl
@[simp] theorem setRegion_host (k v) : (s.setRegion k v).host = s.host := rfl
@[simp] theorem setRegion_ump (k v) : (s.setRegion k v).ump = s.ump := rfl
@[simp] theorem setRegion_umpSrcs (k v) : (s.setRegion k v).umpSrcs = s.umpSrcs := rfl
@[simp] theorem setRegion_bh (k v) : (s.setRegion k v).bh = s.bh := rfl
@[simp] theorem setRegion_power (k v) : (s.setRegion k v).power = s.power := rfl
@[simp] theorem setRegion_rs (k v) : (s.setRegion k v).rs = s.rs := rfl
@[simp] theorem setRegion_sns (k v) : (s.setRegion k v).sns = s.sns := rfl
@[simp] theorem setRegion_region (j k v) :
    (s.setRegion k v).region j = if j = k then v else s.region j := SMap.get_put _ _ _ _ _
@[simp] theorem setRegion_lane (k v j) : (s.setRegion k v).lane j = s.lane j := rfl
@[simp] theorem setRegion_chan (k v j) : (s.setRegion k v).chan j = s.chan j := rfl
@[simp] theorem setRegion_tset (k v j) : (s.setRegion k v).tset j = s.tset j := rfl
@[simp] theorem setRegion_act (k v j) : (s.setRegion k v).act j = s.act j := rfl
@[simp] theorem setRegion_tap (k v j) : (s.setRegion k v).tap j = s.tap j := rfl
@[simp] theorem setRegion_eng (k v j) : (s.setRegion k v).eng j = s.eng j := rfl
@[simp] theorem setRegion_obj (k v j) : (s.setRegion k v).obj j = s.obj j := rfl
@[simp] theorem setRegion_tim (k v j) : (s.setRegion k v).tim j = s.tim j := rfl
@[simp] theorem setRegion_group (k v j) : (s.setRegion k v).group j = s.group j := rfl
@[simp] theorem setRegion_acq (k v j) : (s.setRegion k v).acq j = s.acq j := rfl
@[simp] theorem setRegion_calLane (k v j) : (s.setRegion k v).calLane j = s.calLane j := rfl
@[simp] theorem setRegion_port (k v j) : (s.setRegion k v).port j = s.port j := rfl
@[simp] theorem setRegion_src (k v j) : (s.setRegion k v).src j = s.src j := rfl
@[simp] theorem setRegion_sn (k v j) : (s.setRegion k v).sn j = s.sn j := rfl
@[simp] theorem setRegion_ctx (k v j) : (s.setRegion k v).ctx j = s.ctx j := rfl
@[simp] theorem setRegion_qp (k v j) : (s.setRegion k v).qp j = s.qp j := rfl
@[simp] theorem setRegion_lock (k v j) : (s.setRegion k v).lock j = s.lock j := rfl
@[simp] theorem setRegion_claim (k v j) : (s.setRegion k v).claim j = s.claim j := rfl
@[simp] theorem setRegion_geom (k v j) : (s.setRegion k v).geom j = s.geom j := rfl
@[simp] theorem setRegion_nv (k v j) : (s.setRegion k v).nv j = s.nv j := rfl

/-! setObj. -/

@[simp] theorem updObj_eq (k f) : s.updObj k f = s.setObj k (f (s.obj k)) := rfl
@[simp] theorem setObj_pending (k v) : (s.setObj k v).pending = s.pending := rfl
@[simp] theorem setObj_now (k v) : (s.setObj k v).now = s.now := rfl
@[simp] theorem setObj_freeCount (k v) : (s.setObj k v).freeCount = s.freeCount := rfl
@[simp] theorem setObj_out (k v) : (s.setObj k v).out = s.out := rfl
@[simp] theorem setObj_dev (k v) : (s.setObj k v).dev = s.dev := rfl
@[simp] theorem setObj_lanes (k v) : (s.setObj k v).lanes = s.lanes := rfl
@[simp] theorem setObj_chans (k v) : (s.setObj k v).chans = s.chans := rfl
@[simp] theorem setObj_tsets (k v) : (s.setObj k v).tsets = s.tsets := rfl
@[simp] theorem setObj_acts (k v) : (s.setObj k v).acts = s.acts := rfl
@[simp] theorem setObj_taps (k v) : (s.setObj k v).taps = s.taps := rfl
@[simp] theorem setObj_engines (k v) : (s.setObj k v).engines = s.engines := rfl
@[simp] theorem setObj_flags (k v) : (s.setObj k v).flags = s.flags := rfl
@[simp] theorem setObj_pins (k v) : (s.setObj k v).pins = s.pins := rfl
@[simp] theorem setObj_regions (k v) : (s.setObj k v).regions = s.regions := rfl
@[simp] theorem setObj_fc (k v) : (s.setObj k v).fc = s.fc := rfl
@[simp] theorem setObj_tims (k v) : (s.setObj k v).tims = s.tims := rfl
@[simp] theorem setObj_ref (k v) : (s.setObj k v).ref = s.ref := rfl
@[simp] theorem setObj_groups (k v) : (s.setObj k v).groups = s.groups := rfl
@[simp] theorem setObj_trg (k v) : (s.setObj k v).trg = s.trg := rfl
@[simp] theorem setObj_acqs (k v) : (s.setObj k v).acqs = s.acqs := rfl
@[simp] theorem setObj_log (k v) : (s.setObj k v).log = s.log := rfl
@[simp] theorem setObj_cal (k v) : (s.setObj k v).cal = s.cal := rfl
@[simp] theorem setObj_calLanes (k v) : (s.setObj k v).calLanes = s.calLanes := rfl
@[simp] theorem setObj_ez (k v) : (s.setObj k v).ez = s.ez := rfl
@[simp] theorem setObj_ports (k v) : (s.setObj k v).ports = s.ports := rfl
@[simp] theorem setObj_ea (k v) : (s.setObj k v).ea = s.ea := rfl
@[simp] theorem setObj_host (k v) : (s.setObj k v).host = s.host := rfl
@[simp] theorem setObj_ump (k v) : (s.setObj k v).ump = s.ump := rfl
@[simp] theorem setObj_umpSrcs (k v) : (s.setObj k v).umpSrcs = s.umpSrcs := rfl
@[simp] theorem setObj_bh (k v) : (s.setObj k v).bh = s.bh := rfl
@[simp] theorem setObj_power (k v) : (s.setObj k v).power = s.power := rfl
@[simp] theorem setObj_rs (k v) : (s.setObj k v).rs = s.rs := rfl
@[simp] theorem setObj_sns (k v) : (s.setObj k v).sns = s.sns := rfl
@[simp] theorem setObj_obj (j k v) :
    (s.setObj k v).obj j = if j = k then v else s.obj j := SMap.get_put _ _ _ _ _
@[simp] theorem setObj_lane (k v j) : (s.setObj k v).lane j = s.lane j := rfl
@[simp] theorem setObj_chan (k v j) : (s.setObj k v).chan j = s.chan j := rfl
@[simp] theorem setObj_tset (k v j) : (s.setObj k v).tset j = s.tset j := rfl
@[simp] theorem setObj_act (k v j) : (s.setObj k v).act j = s.act j := rfl
@[simp] theorem setObj_tap (k v j) : (s.setObj k v).tap j = s.tap j := rfl
@[simp] theorem setObj_eng (k v j) : (s.setObj k v).eng j = s.eng j := rfl
@[simp] theorem setObj_region (k v j) : (s.setObj k v).region j = s.region j := rfl
@[simp] theorem setObj_tim (k v j) : (s.setObj k v).tim j = s.tim j := rfl
@[simp] theorem setObj_group (k v j) : (s.setObj k v).group j = s.group j := rfl
@[simp] theorem setObj_acq (k v j) : (s.setObj k v).acq j = s.acq j := rfl
@[simp] theorem setObj_calLane (k v j) : (s.setObj k v).calLane j = s.calLane j := rfl
@[simp] theorem setObj_port (k v j) : (s.setObj k v).port j = s.port j := rfl
@[simp] theorem setObj_src (k v j) : (s.setObj k v).src j = s.src j := rfl
@[simp] theorem setObj_sn (k v j) : (s.setObj k v).sn j = s.sn j := rfl
@[simp] theorem setObj_ctx (k v j) : (s.setObj k v).ctx j = s.ctx j := rfl
@[simp] theorem setObj_qp (k v j) : (s.setObj k v).qp j = s.qp j := rfl
@[simp] theorem setObj_lock (k v j) : (s.setObj k v).lock j = s.lock j := rfl
@[simp] theorem setObj_claim (k v j) : (s.setObj k v).claim j = s.claim j := rfl
@[simp] theorem setObj_geom (k v j) : (s.setObj k v).geom j = s.geom j := rfl
@[simp] theorem setObj_nv (k v j) : (s.setObj k v).nv j = s.nv j := rfl

/-! setTim. -/

@[simp] theorem updTim_eq (k f) : s.updTim k f = s.setTim k (f (s.tim k)) := rfl
@[simp] theorem setTim_pending (k v) : (s.setTim k v).pending = s.pending := rfl
@[simp] theorem setTim_now (k v) : (s.setTim k v).now = s.now := rfl
@[simp] theorem setTim_freeCount (k v) : (s.setTim k v).freeCount = s.freeCount := rfl
@[simp] theorem setTim_out (k v) : (s.setTim k v).out = s.out := rfl
@[simp] theorem setTim_dev (k v) : (s.setTim k v).dev = s.dev := rfl
@[simp] theorem setTim_lanes (k v) : (s.setTim k v).lanes = s.lanes := rfl
@[simp] theorem setTim_chans (k v) : (s.setTim k v).chans = s.chans := rfl
@[simp] theorem setTim_tsets (k v) : (s.setTim k v).tsets = s.tsets := rfl
@[simp] theorem setTim_acts (k v) : (s.setTim k v).acts = s.acts := rfl
@[simp] theorem setTim_taps (k v) : (s.setTim k v).taps = s.taps := rfl
@[simp] theorem setTim_engines (k v) : (s.setTim k v).engines = s.engines := rfl
@[simp] theorem setTim_flags (k v) : (s.setTim k v).flags = s.flags := rfl
@[simp] theorem setTim_pins (k v) : (s.setTim k v).pins = s.pins := rfl
@[simp] theorem setTim_regions (k v) : (s.setTim k v).regions = s.regions := rfl
@[simp] theorem setTim_objs (k v) : (s.setTim k v).objs = s.objs := rfl
@[simp] theorem setTim_fc (k v) : (s.setTim k v).fc = s.fc := rfl
@[simp] theorem setTim_ref (k v) : (s.setTim k v).ref = s.ref := rfl
@[simp] theorem setTim_groups (k v) : (s.setTim k v).groups = s.groups := rfl
@[simp] theorem setTim_trg (k v) : (s.setTim k v).trg = s.trg := rfl
@[simp] theorem setTim_acqs (k v) : (s.setTim k v).acqs = s.acqs := rfl
@[simp] theorem setTim_log (k v) : (s.setTim k v).log = s.log := rfl
@[simp] theorem setTim_cal (k v) : (s.setTim k v).cal = s.cal := rfl
@[simp] theorem setTim_calLanes (k v) : (s.setTim k v).calLanes = s.calLanes := rfl
@[simp] theorem setTim_ez (k v) : (s.setTim k v).ez = s.ez := rfl
@[simp] theorem setTim_ports (k v) : (s.setTim k v).ports = s.ports := rfl
@[simp] theorem setTim_ea (k v) : (s.setTim k v).ea = s.ea := rfl
@[simp] theorem setTim_host (k v) : (s.setTim k v).host = s.host := rfl
@[simp] theorem setTim_ump (k v) : (s.setTim k v).ump = s.ump := rfl
@[simp] theorem setTim_umpSrcs (k v) : (s.setTim k v).umpSrcs = s.umpSrcs := rfl
@[simp] theorem setTim_bh (k v) : (s.setTim k v).bh = s.bh := rfl
@[simp] theorem setTim_power (k v) : (s.setTim k v).power = s.power := rfl
@[simp] theorem setTim_rs (k v) : (s.setTim k v).rs = s.rs := rfl
@[simp] theorem setTim_sns (k v) : (s.setTim k v).sns = s.sns := rfl
@[simp] theorem setTim_tim (j k v) :
    (s.setTim k v).tim j = if j = k then v else s.tim j := SMap.get_put _ _ _ _ _
@[simp] theorem setTim_lane (k v j) : (s.setTim k v).lane j = s.lane j := rfl
@[simp] theorem setTim_chan (k v j) : (s.setTim k v).chan j = s.chan j := rfl
@[simp] theorem setTim_tset (k v j) : (s.setTim k v).tset j = s.tset j := rfl
@[simp] theorem setTim_act (k v j) : (s.setTim k v).act j = s.act j := rfl
@[simp] theorem setTim_tap (k v j) : (s.setTim k v).tap j = s.tap j := rfl
@[simp] theorem setTim_eng (k v j) : (s.setTim k v).eng j = s.eng j := rfl
@[simp] theorem setTim_region (k v j) : (s.setTim k v).region j = s.region j := rfl
@[simp] theorem setTim_obj (k v j) : (s.setTim k v).obj j = s.obj j := rfl
@[simp] theorem setTim_group (k v j) : (s.setTim k v).group j = s.group j := rfl
@[simp] theorem setTim_acq (k v j) : (s.setTim k v).acq j = s.acq j := rfl
@[simp] theorem setTim_calLane (k v j) : (s.setTim k v).calLane j = s.calLane j := rfl
@[simp] theorem setTim_port (k v j) : (s.setTim k v).port j = s.port j := rfl
@[simp] theorem setTim_src (k v j) : (s.setTim k v).src j = s.src j := rfl
@[simp] theorem setTim_sn (k v j) : (s.setTim k v).sn j = s.sn j := rfl
@[simp] theorem setTim_ctx (k v j) : (s.setTim k v).ctx j = s.ctx j := rfl
@[simp] theorem setTim_qp (k v j) : (s.setTim k v).qp j = s.qp j := rfl
@[simp] theorem setTim_lock (k v j) : (s.setTim k v).lock j = s.lock j := rfl
@[simp] theorem setTim_claim (k v j) : (s.setTim k v).claim j = s.claim j := rfl
@[simp] theorem setTim_geom (k v j) : (s.setTim k v).geom j = s.geom j := rfl
@[simp] theorem setTim_nv (k v j) : (s.setTim k v).nv j = s.nv j := rfl

/-! setGroup. -/

@[simp] theorem updGroup_eq (k f) : s.updGroup k f = s.setGroup k (f (s.group k)) := rfl
@[simp] theorem setGroup_pending (k v) : (s.setGroup k v).pending = s.pending := rfl
@[simp] theorem setGroup_now (k v) : (s.setGroup k v).now = s.now := rfl
@[simp] theorem setGroup_freeCount (k v) : (s.setGroup k v).freeCount = s.freeCount := rfl
@[simp] theorem setGroup_out (k v) : (s.setGroup k v).out = s.out := rfl
@[simp] theorem setGroup_dev (k v) : (s.setGroup k v).dev = s.dev := rfl
@[simp] theorem setGroup_lanes (k v) : (s.setGroup k v).lanes = s.lanes := rfl
@[simp] theorem setGroup_chans (k v) : (s.setGroup k v).chans = s.chans := rfl
@[simp] theorem setGroup_tsets (k v) : (s.setGroup k v).tsets = s.tsets := rfl
@[simp] theorem setGroup_acts (k v) : (s.setGroup k v).acts = s.acts := rfl
@[simp] theorem setGroup_taps (k v) : (s.setGroup k v).taps = s.taps := rfl
@[simp] theorem setGroup_engines (k v) : (s.setGroup k v).engines = s.engines := rfl
@[simp] theorem setGroup_flags (k v) : (s.setGroup k v).flags = s.flags := rfl
@[simp] theorem setGroup_pins (k v) : (s.setGroup k v).pins = s.pins := rfl
@[simp] theorem setGroup_regions (k v) : (s.setGroup k v).regions = s.regions := rfl
@[simp] theorem setGroup_objs (k v) : (s.setGroup k v).objs = s.objs := rfl
@[simp] theorem setGroup_fc (k v) : (s.setGroup k v).fc = s.fc := rfl
@[simp] theorem setGroup_tims (k v) : (s.setGroup k v).tims = s.tims := rfl
@[simp] theorem setGroup_ref (k v) : (s.setGroup k v).ref = s.ref := rfl
@[simp] theorem setGroup_trg (k v) : (s.setGroup k v).trg = s.trg := rfl
@[simp] theorem setGroup_acqs (k v) : (s.setGroup k v).acqs = s.acqs := rfl
@[simp] theorem setGroup_log (k v) : (s.setGroup k v).log = s.log := rfl
@[simp] theorem setGroup_cal (k v) : (s.setGroup k v).cal = s.cal := rfl
@[simp] theorem setGroup_calLanes (k v) : (s.setGroup k v).calLanes = s.calLanes := rfl
@[simp] theorem setGroup_ez (k v) : (s.setGroup k v).ez = s.ez := rfl
@[simp] theorem setGroup_ports (k v) : (s.setGroup k v).ports = s.ports := rfl
@[simp] theorem setGroup_ea (k v) : (s.setGroup k v).ea = s.ea := rfl
@[simp] theorem setGroup_host (k v) : (s.setGroup k v).host = s.host := rfl
@[simp] theorem setGroup_ump (k v) : (s.setGroup k v).ump = s.ump := rfl
@[simp] theorem setGroup_umpSrcs (k v) : (s.setGroup k v).umpSrcs = s.umpSrcs := rfl
@[simp] theorem setGroup_bh (k v) : (s.setGroup k v).bh = s.bh := rfl
@[simp] theorem setGroup_power (k v) : (s.setGroup k v).power = s.power := rfl
@[simp] theorem setGroup_rs (k v) : (s.setGroup k v).rs = s.rs := rfl
@[simp] theorem setGroup_sns (k v) : (s.setGroup k v).sns = s.sns := rfl
@[simp] theorem setGroup_group (j k v) :
    (s.setGroup k v).group j = if j = k then v else s.group j := SMap.get_put _ _ _ _ _
@[simp] theorem setGroup_lane (k v j) : (s.setGroup k v).lane j = s.lane j := rfl
@[simp] theorem setGroup_chan (k v j) : (s.setGroup k v).chan j = s.chan j := rfl
@[simp] theorem setGroup_tset (k v j) : (s.setGroup k v).tset j = s.tset j := rfl
@[simp] theorem setGroup_act (k v j) : (s.setGroup k v).act j = s.act j := rfl
@[simp] theorem setGroup_tap (k v j) : (s.setGroup k v).tap j = s.tap j := rfl
@[simp] theorem setGroup_eng (k v j) : (s.setGroup k v).eng j = s.eng j := rfl
@[simp] theorem setGroup_region (k v j) : (s.setGroup k v).region j = s.region j := rfl
@[simp] theorem setGroup_obj (k v j) : (s.setGroup k v).obj j = s.obj j := rfl
@[simp] theorem setGroup_tim (k v j) : (s.setGroup k v).tim j = s.tim j := rfl
@[simp] theorem setGroup_acq (k v j) : (s.setGroup k v).acq j = s.acq j := rfl
@[simp] theorem setGroup_calLane (k v j) : (s.setGroup k v).calLane j = s.calLane j := rfl
@[simp] theorem setGroup_port (k v j) : (s.setGroup k v).port j = s.port j := rfl
@[simp] theorem setGroup_src (k v j) : (s.setGroup k v).src j = s.src j := rfl
@[simp] theorem setGroup_sn (k v j) : (s.setGroup k v).sn j = s.sn j := rfl
@[simp] theorem setGroup_ctx (k v j) : (s.setGroup k v).ctx j = s.ctx j := rfl
@[simp] theorem setGroup_qp (k v j) : (s.setGroup k v).qp j = s.qp j := rfl
@[simp] theorem setGroup_lock (k v j) : (s.setGroup k v).lock j = s.lock j := rfl
@[simp] theorem setGroup_claim (k v j) : (s.setGroup k v).claim j = s.claim j := rfl
@[simp] theorem setGroup_geom (k v j) : (s.setGroup k v).geom j = s.geom j := rfl
@[simp] theorem setGroup_nv (k v j) : (s.setGroup k v).nv j = s.nv j := rfl

/-! setAcq. -/

@[simp] theorem updAcq_eq (k f) : s.updAcq k f = s.setAcq k (f (s.acq k)) := rfl
@[simp] theorem setAcq_pending (k v) : (s.setAcq k v).pending = s.pending := rfl
@[simp] theorem setAcq_now (k v) : (s.setAcq k v).now = s.now := rfl
@[simp] theorem setAcq_freeCount (k v) : (s.setAcq k v).freeCount = s.freeCount := rfl
@[simp] theorem setAcq_out (k v) : (s.setAcq k v).out = s.out := rfl
@[simp] theorem setAcq_dev (k v) : (s.setAcq k v).dev = s.dev := rfl
@[simp] theorem setAcq_lanes (k v) : (s.setAcq k v).lanes = s.lanes := rfl
@[simp] theorem setAcq_chans (k v) : (s.setAcq k v).chans = s.chans := rfl
@[simp] theorem setAcq_tsets (k v) : (s.setAcq k v).tsets = s.tsets := rfl
@[simp] theorem setAcq_acts (k v) : (s.setAcq k v).acts = s.acts := rfl
@[simp] theorem setAcq_taps (k v) : (s.setAcq k v).taps = s.taps := rfl
@[simp] theorem setAcq_engines (k v) : (s.setAcq k v).engines = s.engines := rfl
@[simp] theorem setAcq_flags (k v) : (s.setAcq k v).flags = s.flags := rfl
@[simp] theorem setAcq_pins (k v) : (s.setAcq k v).pins = s.pins := rfl
@[simp] theorem setAcq_regions (k v) : (s.setAcq k v).regions = s.regions := rfl
@[simp] theorem setAcq_objs (k v) : (s.setAcq k v).objs = s.objs := rfl
@[simp] theorem setAcq_fc (k v) : (s.setAcq k v).fc = s.fc := rfl
@[simp] theorem setAcq_tims (k v) : (s.setAcq k v).tims = s.tims := rfl
@[simp] theorem setAcq_ref (k v) : (s.setAcq k v).ref = s.ref := rfl
@[simp] theorem setAcq_groups (k v) : (s.setAcq k v).groups = s.groups := rfl
@[simp] theorem setAcq_trg (k v) : (s.setAcq k v).trg = s.trg := rfl
@[simp] theorem setAcq_log (k v) : (s.setAcq k v).log = s.log := rfl
@[simp] theorem setAcq_cal (k v) : (s.setAcq k v).cal = s.cal := rfl
@[simp] theorem setAcq_calLanes (k v) : (s.setAcq k v).calLanes = s.calLanes := rfl
@[simp] theorem setAcq_ez (k v) : (s.setAcq k v).ez = s.ez := rfl
@[simp] theorem setAcq_ports (k v) : (s.setAcq k v).ports = s.ports := rfl
@[simp] theorem setAcq_ea (k v) : (s.setAcq k v).ea = s.ea := rfl
@[simp] theorem setAcq_host (k v) : (s.setAcq k v).host = s.host := rfl
@[simp] theorem setAcq_ump (k v) : (s.setAcq k v).ump = s.ump := rfl
@[simp] theorem setAcq_umpSrcs (k v) : (s.setAcq k v).umpSrcs = s.umpSrcs := rfl
@[simp] theorem setAcq_bh (k v) : (s.setAcq k v).bh = s.bh := rfl
@[simp] theorem setAcq_power (k v) : (s.setAcq k v).power = s.power := rfl
@[simp] theorem setAcq_rs (k v) : (s.setAcq k v).rs = s.rs := rfl
@[simp] theorem setAcq_sns (k v) : (s.setAcq k v).sns = s.sns := rfl
@[simp] theorem setAcq_acq (j k v) :
    (s.setAcq k v).acq j = if j = k then v else s.acq j := SMap.get_put _ _ _ _ _
@[simp] theorem setAcq_lane (k v j) : (s.setAcq k v).lane j = s.lane j := rfl
@[simp] theorem setAcq_chan (k v j) : (s.setAcq k v).chan j = s.chan j := rfl
@[simp] theorem setAcq_tset (k v j) : (s.setAcq k v).tset j = s.tset j := rfl
@[simp] theorem setAcq_act (k v j) : (s.setAcq k v).act j = s.act j := rfl
@[simp] theorem setAcq_tap (k v j) : (s.setAcq k v).tap j = s.tap j := rfl
@[simp] theorem setAcq_eng (k v j) : (s.setAcq k v).eng j = s.eng j := rfl
@[simp] theorem setAcq_region (k v j) : (s.setAcq k v).region j = s.region j := rfl
@[simp] theorem setAcq_obj (k v j) : (s.setAcq k v).obj j = s.obj j := rfl
@[simp] theorem setAcq_tim (k v j) : (s.setAcq k v).tim j = s.tim j := rfl
@[simp] theorem setAcq_group (k v j) : (s.setAcq k v).group j = s.group j := rfl
@[simp] theorem setAcq_calLane (k v j) : (s.setAcq k v).calLane j = s.calLane j := rfl
@[simp] theorem setAcq_port (k v j) : (s.setAcq k v).port j = s.port j := rfl
@[simp] theorem setAcq_src (k v j) : (s.setAcq k v).src j = s.src j := rfl
@[simp] theorem setAcq_sn (k v j) : (s.setAcq k v).sn j = s.sn j := rfl
@[simp] theorem setAcq_ctx (k v j) : (s.setAcq k v).ctx j = s.ctx j := rfl
@[simp] theorem setAcq_qp (k v j) : (s.setAcq k v).qp j = s.qp j := rfl
@[simp] theorem setAcq_lock (k v j) : (s.setAcq k v).lock j = s.lock j := rfl
@[simp] theorem setAcq_claim (k v j) : (s.setAcq k v).claim j = s.claim j := rfl
@[simp] theorem setAcq_geom (k v j) : (s.setAcq k v).geom j = s.geom j := rfl
@[simp] theorem setAcq_nv (k v j) : (s.setAcq k v).nv j = s.nv j := rfl

/-! setCalLane. -/

@[simp] theorem updCalLane_eq (k f) : s.updCalLane k f = s.setCalLane k (f (s.calLane k)) := rfl
@[simp] theorem setCalLane_pending (k v) : (s.setCalLane k v).pending = s.pending := rfl
@[simp] theorem setCalLane_now (k v) : (s.setCalLane k v).now = s.now := rfl
@[simp] theorem setCalLane_freeCount (k v) : (s.setCalLane k v).freeCount = s.freeCount := rfl
@[simp] theorem setCalLane_out (k v) : (s.setCalLane k v).out = s.out := rfl
@[simp] theorem setCalLane_dev (k v) : (s.setCalLane k v).dev = s.dev := rfl
@[simp] theorem setCalLane_lanes (k v) : (s.setCalLane k v).lanes = s.lanes := rfl
@[simp] theorem setCalLane_chans (k v) : (s.setCalLane k v).chans = s.chans := rfl
@[simp] theorem setCalLane_tsets (k v) : (s.setCalLane k v).tsets = s.tsets := rfl
@[simp] theorem setCalLane_acts (k v) : (s.setCalLane k v).acts = s.acts := rfl
@[simp] theorem setCalLane_taps (k v) : (s.setCalLane k v).taps = s.taps := rfl
@[simp] theorem setCalLane_engines (k v) : (s.setCalLane k v).engines = s.engines := rfl
@[simp] theorem setCalLane_flags (k v) : (s.setCalLane k v).flags = s.flags := rfl
@[simp] theorem setCalLane_pins (k v) : (s.setCalLane k v).pins = s.pins := rfl
@[simp] theorem setCalLane_regions (k v) : (s.setCalLane k v).regions = s.regions := rfl
@[simp] theorem setCalLane_objs (k v) : (s.setCalLane k v).objs = s.objs := rfl
@[simp] theorem setCalLane_fc (k v) : (s.setCalLane k v).fc = s.fc := rfl
@[simp] theorem setCalLane_tims (k v) : (s.setCalLane k v).tims = s.tims := rfl
@[simp] theorem setCalLane_ref (k v) : (s.setCalLane k v).ref = s.ref := rfl
@[simp] theorem setCalLane_groups (k v) : (s.setCalLane k v).groups = s.groups := rfl
@[simp] theorem setCalLane_trg (k v) : (s.setCalLane k v).trg = s.trg := rfl
@[simp] theorem setCalLane_acqs (k v) : (s.setCalLane k v).acqs = s.acqs := rfl
@[simp] theorem setCalLane_log (k v) : (s.setCalLane k v).log = s.log := rfl
@[simp] theorem setCalLane_cal (k v) : (s.setCalLane k v).cal = s.cal := rfl
@[simp] theorem setCalLane_ez (k v) : (s.setCalLane k v).ez = s.ez := rfl
@[simp] theorem setCalLane_ports (k v) : (s.setCalLane k v).ports = s.ports := rfl
@[simp] theorem setCalLane_ea (k v) : (s.setCalLane k v).ea = s.ea := rfl
@[simp] theorem setCalLane_host (k v) : (s.setCalLane k v).host = s.host := rfl
@[simp] theorem setCalLane_ump (k v) : (s.setCalLane k v).ump = s.ump := rfl
@[simp] theorem setCalLane_umpSrcs (k v) : (s.setCalLane k v).umpSrcs = s.umpSrcs := rfl
@[simp] theorem setCalLane_bh (k v) : (s.setCalLane k v).bh = s.bh := rfl
@[simp] theorem setCalLane_power (k v) : (s.setCalLane k v).power = s.power := rfl
@[simp] theorem setCalLane_rs (k v) : (s.setCalLane k v).rs = s.rs := rfl
@[simp] theorem setCalLane_sns (k v) : (s.setCalLane k v).sns = s.sns := rfl
@[simp] theorem setCalLane_calLane (j k v) :
    (s.setCalLane k v).calLane j = if j = k then v else s.calLane j := SMap.get_put _ _ _ _ _
@[simp] theorem setCalLane_lane (k v j) : (s.setCalLane k v).lane j = s.lane j := rfl
@[simp] theorem setCalLane_chan (k v j) : (s.setCalLane k v).chan j = s.chan j := rfl
@[simp] theorem setCalLane_tset (k v j) : (s.setCalLane k v).tset j = s.tset j := rfl
@[simp] theorem setCalLane_act (k v j) : (s.setCalLane k v).act j = s.act j := rfl
@[simp] theorem setCalLane_tap (k v j) : (s.setCalLane k v).tap j = s.tap j := rfl
@[simp] theorem setCalLane_eng (k v j) : (s.setCalLane k v).eng j = s.eng j := rfl
@[simp] theorem setCalLane_region (k v j) : (s.setCalLane k v).region j = s.region j := rfl
@[simp] theorem setCalLane_obj (k v j) : (s.setCalLane k v).obj j = s.obj j := rfl
@[simp] theorem setCalLane_tim (k v j) : (s.setCalLane k v).tim j = s.tim j := rfl
@[simp] theorem setCalLane_group (k v j) : (s.setCalLane k v).group j = s.group j := rfl
@[simp] theorem setCalLane_acq (k v j) : (s.setCalLane k v).acq j = s.acq j := rfl
@[simp] theorem setCalLane_port (k v j) : (s.setCalLane k v).port j = s.port j := rfl
@[simp] theorem setCalLane_src (k v j) : (s.setCalLane k v).src j = s.src j := rfl
@[simp] theorem setCalLane_sn (k v j) : (s.setCalLane k v).sn j = s.sn j := rfl
@[simp] theorem setCalLane_ctx (k v j) : (s.setCalLane k v).ctx j = s.ctx j := rfl
@[simp] theorem setCalLane_qp (k v j) : (s.setCalLane k v).qp j = s.qp j := rfl
@[simp] theorem setCalLane_lock (k v j) : (s.setCalLane k v).lock j = s.lock j := rfl
@[simp] theorem setCalLane_claim (k v j) : (s.setCalLane k v).claim j = s.claim j := rfl
@[simp] theorem setCalLane_geom (k v j) : (s.setCalLane k v).geom j = s.geom j := rfl
@[simp] theorem setCalLane_nv (k v j) : (s.setCalLane k v).nv j = s.nv j := rfl

/-! setPort. -/

@[simp] theorem updPort_eq (k f) : s.updPort k f = s.setPort k (f (s.port k)) := rfl
@[simp] theorem setPort_pending (k v) : (s.setPort k v).pending = s.pending := rfl
@[simp] theorem setPort_now (k v) : (s.setPort k v).now = s.now := rfl
@[simp] theorem setPort_freeCount (k v) : (s.setPort k v).freeCount = s.freeCount := rfl
@[simp] theorem setPort_out (k v) : (s.setPort k v).out = s.out := rfl
@[simp] theorem setPort_dev (k v) : (s.setPort k v).dev = s.dev := rfl
@[simp] theorem setPort_lanes (k v) : (s.setPort k v).lanes = s.lanes := rfl
@[simp] theorem setPort_chans (k v) : (s.setPort k v).chans = s.chans := rfl
@[simp] theorem setPort_tsets (k v) : (s.setPort k v).tsets = s.tsets := rfl
@[simp] theorem setPort_acts (k v) : (s.setPort k v).acts = s.acts := rfl
@[simp] theorem setPort_taps (k v) : (s.setPort k v).taps = s.taps := rfl
@[simp] theorem setPort_engines (k v) : (s.setPort k v).engines = s.engines := rfl
@[simp] theorem setPort_flags (k v) : (s.setPort k v).flags = s.flags := rfl
@[simp] theorem setPort_pins (k v) : (s.setPort k v).pins = s.pins := rfl
@[simp] theorem setPort_regions (k v) : (s.setPort k v).regions = s.regions := rfl
@[simp] theorem setPort_objs (k v) : (s.setPort k v).objs = s.objs := rfl
@[simp] theorem setPort_fc (k v) : (s.setPort k v).fc = s.fc := rfl
@[simp] theorem setPort_tims (k v) : (s.setPort k v).tims = s.tims := rfl
@[simp] theorem setPort_ref (k v) : (s.setPort k v).ref = s.ref := rfl
@[simp] theorem setPort_groups (k v) : (s.setPort k v).groups = s.groups := rfl
@[simp] theorem setPort_trg (k v) : (s.setPort k v).trg = s.trg := rfl
@[simp] theorem setPort_acqs (k v) : (s.setPort k v).acqs = s.acqs := rfl
@[simp] theorem setPort_log (k v) : (s.setPort k v).log = s.log := rfl
@[simp] theorem setPort_cal (k v) : (s.setPort k v).cal = s.cal := rfl
@[simp] theorem setPort_calLanes (k v) : (s.setPort k v).calLanes = s.calLanes := rfl
@[simp] theorem setPort_ez (k v) : (s.setPort k v).ez = s.ez := rfl
@[simp] theorem setPort_ea (k v) : (s.setPort k v).ea = s.ea := rfl
@[simp] theorem setPort_host (k v) : (s.setPort k v).host = s.host := rfl
@[simp] theorem setPort_ump (k v) : (s.setPort k v).ump = s.ump := rfl
@[simp] theorem setPort_umpSrcs (k v) : (s.setPort k v).umpSrcs = s.umpSrcs := rfl
@[simp] theorem setPort_bh (k v) : (s.setPort k v).bh = s.bh := rfl
@[simp] theorem setPort_power (k v) : (s.setPort k v).power = s.power := rfl
@[simp] theorem setPort_rs (k v) : (s.setPort k v).rs = s.rs := rfl
@[simp] theorem setPort_sns (k v) : (s.setPort k v).sns = s.sns := rfl
@[simp] theorem setPort_port (j k v) :
    (s.setPort k v).port j = if j = k then v else s.port j := SMap.get_put _ _ _ _ _
@[simp] theorem setPort_lane (k v j) : (s.setPort k v).lane j = s.lane j := rfl
@[simp] theorem setPort_chan (k v j) : (s.setPort k v).chan j = s.chan j := rfl
@[simp] theorem setPort_tset (k v j) : (s.setPort k v).tset j = s.tset j := rfl
@[simp] theorem setPort_act (k v j) : (s.setPort k v).act j = s.act j := rfl
@[simp] theorem setPort_tap (k v j) : (s.setPort k v).tap j = s.tap j := rfl
@[simp] theorem setPort_eng (k v j) : (s.setPort k v).eng j = s.eng j := rfl
@[simp] theorem setPort_region (k v j) : (s.setPort k v).region j = s.region j := rfl
@[simp] theorem setPort_obj (k v j) : (s.setPort k v).obj j = s.obj j := rfl
@[simp] theorem setPort_tim (k v j) : (s.setPort k v).tim j = s.tim j := rfl
@[simp] theorem setPort_group (k v j) : (s.setPort k v).group j = s.group j := rfl
@[simp] theorem setPort_acq (k v j) : (s.setPort k v).acq j = s.acq j := rfl
@[simp] theorem setPort_calLane (k v j) : (s.setPort k v).calLane j = s.calLane j := rfl
@[simp] theorem setPort_src (k v j) : (s.setPort k v).src j = s.src j := rfl
@[simp] theorem setPort_sn (k v j) : (s.setPort k v).sn j = s.sn j := rfl
@[simp] theorem setPort_ctx (k v j) : (s.setPort k v).ctx j = s.ctx j := rfl
@[simp] theorem setPort_qp (k v j) : (s.setPort k v).qp j = s.qp j := rfl
@[simp] theorem setPort_lock (k v j) : (s.setPort k v).lock j = s.lock j := rfl
@[simp] theorem setPort_claim (k v j) : (s.setPort k v).claim j = s.claim j := rfl
@[simp] theorem setPort_geom (k v j) : (s.setPort k v).geom j = s.geom j := rfl
@[simp] theorem setPort_nv (k v j) : (s.setPort k v).nv j = s.nv j := rfl

/-! setSrc. -/

@[simp] theorem updSrc_eq (k f) : s.updSrc k f = s.setSrc k (f (s.src k)) := rfl
@[simp] theorem setSrc_pending (k v) : (s.setSrc k v).pending = s.pending := rfl
@[simp] theorem setSrc_now (k v) : (s.setSrc k v).now = s.now := rfl
@[simp] theorem setSrc_freeCount (k v) : (s.setSrc k v).freeCount = s.freeCount := rfl
@[simp] theorem setSrc_out (k v) : (s.setSrc k v).out = s.out := rfl
@[simp] theorem setSrc_dev (k v) : (s.setSrc k v).dev = s.dev := rfl
@[simp] theorem setSrc_lanes (k v) : (s.setSrc k v).lanes = s.lanes := rfl
@[simp] theorem setSrc_chans (k v) : (s.setSrc k v).chans = s.chans := rfl
@[simp] theorem setSrc_tsets (k v) : (s.setSrc k v).tsets = s.tsets := rfl
@[simp] theorem setSrc_acts (k v) : (s.setSrc k v).acts = s.acts := rfl
@[simp] theorem setSrc_taps (k v) : (s.setSrc k v).taps = s.taps := rfl
@[simp] theorem setSrc_engines (k v) : (s.setSrc k v).engines = s.engines := rfl
@[simp] theorem setSrc_flags (k v) : (s.setSrc k v).flags = s.flags := rfl
@[simp] theorem setSrc_pins (k v) : (s.setSrc k v).pins = s.pins := rfl
@[simp] theorem setSrc_regions (k v) : (s.setSrc k v).regions = s.regions := rfl
@[simp] theorem setSrc_objs (k v) : (s.setSrc k v).objs = s.objs := rfl
@[simp] theorem setSrc_fc (k v) : (s.setSrc k v).fc = s.fc := rfl
@[simp] theorem setSrc_tims (k v) : (s.setSrc k v).tims = s.tims := rfl
@[simp] theorem setSrc_ref (k v) : (s.setSrc k v).ref = s.ref := rfl
@[simp] theorem setSrc_groups (k v) : (s.setSrc k v).groups = s.groups := rfl
@[simp] theorem setSrc_trg (k v) : (s.setSrc k v).trg = s.trg := rfl
@[simp] theorem setSrc_acqs (k v) : (s.setSrc k v).acqs = s.acqs := rfl
@[simp] theorem setSrc_log (k v) : (s.setSrc k v).log = s.log := rfl
@[simp] theorem setSrc_cal (k v) : (s.setSrc k v).cal = s.cal := rfl
@[simp] theorem setSrc_calLanes (k v) : (s.setSrc k v).calLanes = s.calLanes := rfl
@[simp] theorem setSrc_ez (k v) : (s.setSrc k v).ez = s.ez := rfl
@[simp] theorem setSrc_ports (k v) : (s.setSrc k v).ports = s.ports := rfl
@[simp] theorem setSrc_ea (k v) : (s.setSrc k v).ea = s.ea := rfl
@[simp] theorem setSrc_host (k v) : (s.setSrc k v).host = s.host := rfl
@[simp] theorem setSrc_ump (k v) : (s.setSrc k v).ump = s.ump := rfl
@[simp] theorem setSrc_bh (k v) : (s.setSrc k v).bh = s.bh := rfl
@[simp] theorem setSrc_power (k v) : (s.setSrc k v).power = s.power := rfl
@[simp] theorem setSrc_rs (k v) : (s.setSrc k v).rs = s.rs := rfl
@[simp] theorem setSrc_sns (k v) : (s.setSrc k v).sns = s.sns := rfl
@[simp] theorem setSrc_src (j k v) :
    (s.setSrc k v).src j = if j = k then v else s.src j := SMap.get_put _ _ _ _ _
@[simp] theorem setSrc_lane (k v j) : (s.setSrc k v).lane j = s.lane j := rfl
@[simp] theorem setSrc_chan (k v j) : (s.setSrc k v).chan j = s.chan j := rfl
@[simp] theorem setSrc_tset (k v j) : (s.setSrc k v).tset j = s.tset j := rfl
@[simp] theorem setSrc_act (k v j) : (s.setSrc k v).act j = s.act j := rfl
@[simp] theorem setSrc_tap (k v j) : (s.setSrc k v).tap j = s.tap j := rfl
@[simp] theorem setSrc_eng (k v j) : (s.setSrc k v).eng j = s.eng j := rfl
@[simp] theorem setSrc_region (k v j) : (s.setSrc k v).region j = s.region j := rfl
@[simp] theorem setSrc_obj (k v j) : (s.setSrc k v).obj j = s.obj j := rfl
@[simp] theorem setSrc_tim (k v j) : (s.setSrc k v).tim j = s.tim j := rfl
@[simp] theorem setSrc_group (k v j) : (s.setSrc k v).group j = s.group j := rfl
@[simp] theorem setSrc_acq (k v j) : (s.setSrc k v).acq j = s.acq j := rfl
@[simp] theorem setSrc_calLane (k v j) : (s.setSrc k v).calLane j = s.calLane j := rfl
@[simp] theorem setSrc_port (k v j) : (s.setSrc k v).port j = s.port j := rfl
@[simp] theorem setSrc_sn (k v j) : (s.setSrc k v).sn j = s.sn j := rfl
@[simp] theorem setSrc_ctx (k v j) : (s.setSrc k v).ctx j = s.ctx j := rfl
@[simp] theorem setSrc_qp (k v j) : (s.setSrc k v).qp j = s.qp j := rfl
@[simp] theorem setSrc_lock (k v j) : (s.setSrc k v).lock j = s.lock j := rfl
@[simp] theorem setSrc_claim (k v j) : (s.setSrc k v).claim j = s.claim j := rfl
@[simp] theorem setSrc_geom (k v j) : (s.setSrc k v).geom j = s.geom j := rfl
@[simp] theorem setSrc_nv (k v j) : (s.setSrc k v).nv j = s.nv j := rfl

/-! setSn. -/

@[simp] theorem updSn_eq (k f) : s.updSn k f = s.setSn k (f (s.sn k)) := rfl
@[simp] theorem setSn_pending (k v) : (s.setSn k v).pending = s.pending := rfl
@[simp] theorem setSn_now (k v) : (s.setSn k v).now = s.now := rfl
@[simp] theorem setSn_freeCount (k v) : (s.setSn k v).freeCount = s.freeCount := rfl
@[simp] theorem setSn_out (k v) : (s.setSn k v).out = s.out := rfl
@[simp] theorem setSn_dev (k v) : (s.setSn k v).dev = s.dev := rfl
@[simp] theorem setSn_lanes (k v) : (s.setSn k v).lanes = s.lanes := rfl
@[simp] theorem setSn_chans (k v) : (s.setSn k v).chans = s.chans := rfl
@[simp] theorem setSn_tsets (k v) : (s.setSn k v).tsets = s.tsets := rfl
@[simp] theorem setSn_acts (k v) : (s.setSn k v).acts = s.acts := rfl
@[simp] theorem setSn_taps (k v) : (s.setSn k v).taps = s.taps := rfl
@[simp] theorem setSn_engines (k v) : (s.setSn k v).engines = s.engines := rfl
@[simp] theorem setSn_flags (k v) : (s.setSn k v).flags = s.flags := rfl
@[simp] theorem setSn_pins (k v) : (s.setSn k v).pins = s.pins := rfl
@[simp] theorem setSn_regions (k v) : (s.setSn k v).regions = s.regions := rfl
@[simp] theorem setSn_objs (k v) : (s.setSn k v).objs = s.objs := rfl
@[simp] theorem setSn_fc (k v) : (s.setSn k v).fc = s.fc := rfl
@[simp] theorem setSn_tims (k v) : (s.setSn k v).tims = s.tims := rfl
@[simp] theorem setSn_ref (k v) : (s.setSn k v).ref = s.ref := rfl
@[simp] theorem setSn_groups (k v) : (s.setSn k v).groups = s.groups := rfl
@[simp] theorem setSn_trg (k v) : (s.setSn k v).trg = s.trg := rfl
@[simp] theorem setSn_acqs (k v) : (s.setSn k v).acqs = s.acqs := rfl
@[simp] theorem setSn_log (k v) : (s.setSn k v).log = s.log := rfl
@[simp] theorem setSn_cal (k v) : (s.setSn k v).cal = s.cal := rfl
@[simp] theorem setSn_calLanes (k v) : (s.setSn k v).calLanes = s.calLanes := rfl
@[simp] theorem setSn_ez (k v) : (s.setSn k v).ez = s.ez := rfl
@[simp] theorem setSn_ports (k v) : (s.setSn k v).ports = s.ports := rfl
@[simp] theorem setSn_ea (k v) : (s.setSn k v).ea = s.ea := rfl
@[simp] theorem setSn_host (k v) : (s.setSn k v).host = s.host := rfl
@[simp] theorem setSn_ump (k v) : (s.setSn k v).ump = s.ump := rfl
@[simp] theorem setSn_umpSrcs (k v) : (s.setSn k v).umpSrcs = s.umpSrcs := rfl
@[simp] theorem setSn_bh (k v) : (s.setSn k v).bh = s.bh := rfl
@[simp] theorem setSn_power (k v) : (s.setSn k v).power = s.power := rfl
@[simp] theorem setSn_rs (k v) : (s.setSn k v).rs = s.rs := rfl
@[simp] theorem setSn_sn (j k v) :
    (s.setSn k v).sn j = if j = k then v else s.sn j := SMap.get_put _ _ _ _ _
@[simp] theorem setSn_lane (k v j) : (s.setSn k v).lane j = s.lane j := rfl
@[simp] theorem setSn_chan (k v j) : (s.setSn k v).chan j = s.chan j := rfl
@[simp] theorem setSn_tset (k v j) : (s.setSn k v).tset j = s.tset j := rfl
@[simp] theorem setSn_act (k v j) : (s.setSn k v).act j = s.act j := rfl
@[simp] theorem setSn_tap (k v j) : (s.setSn k v).tap j = s.tap j := rfl
@[simp] theorem setSn_eng (k v j) : (s.setSn k v).eng j = s.eng j := rfl
@[simp] theorem setSn_region (k v j) : (s.setSn k v).region j = s.region j := rfl
@[simp] theorem setSn_obj (k v j) : (s.setSn k v).obj j = s.obj j := rfl
@[simp] theorem setSn_tim (k v j) : (s.setSn k v).tim j = s.tim j := rfl
@[simp] theorem setSn_group (k v j) : (s.setSn k v).group j = s.group j := rfl
@[simp] theorem setSn_acq (k v j) : (s.setSn k v).acq j = s.acq j := rfl
@[simp] theorem setSn_calLane (k v j) : (s.setSn k v).calLane j = s.calLane j := rfl
@[simp] theorem setSn_port (k v j) : (s.setSn k v).port j = s.port j := rfl
@[simp] theorem setSn_src (k v j) : (s.setSn k v).src j = s.src j := rfl
@[simp] theorem setSn_ctx (k v j) : (s.setSn k v).ctx j = s.ctx j := rfl
@[simp] theorem setSn_qp (k v j) : (s.setSn k v).qp j = s.qp j := rfl
@[simp] theorem setSn_lock (k v j) : (s.setSn k v).lock j = s.lock j := rfl
@[simp] theorem setSn_claim (k v j) : (s.setSn k v).claim j = s.claim j := rfl
@[simp] theorem setSn_geom (k v j) : (s.setSn k v).geom j = s.geom j := rfl
@[simp] theorem setSn_nv (k v j) : (s.setSn k v).nv j = s.nv j := rfl

/-! setCtx. -/

@[simp] theorem updCtx_eq (k f) : s.updCtx k f = s.setCtx k (f (s.ctx k)) := rfl
@[simp] theorem setCtx_pending (k v) : (s.setCtx k v).pending = s.pending := rfl
@[simp] theorem setCtx_now (k v) : (s.setCtx k v).now = s.now := rfl
@[simp] theorem setCtx_freeCount (k v) : (s.setCtx k v).freeCount = s.freeCount := rfl
@[simp] theorem setCtx_out (k v) : (s.setCtx k v).out = s.out := rfl
@[simp] theorem setCtx_dev (k v) : (s.setCtx k v).dev = s.dev := rfl
@[simp] theorem setCtx_lanes (k v) : (s.setCtx k v).lanes = s.lanes := rfl
@[simp] theorem setCtx_chans (k v) : (s.setCtx k v).chans = s.chans := rfl
@[simp] theorem setCtx_tsets (k v) : (s.setCtx k v).tsets = s.tsets := rfl
@[simp] theorem setCtx_acts (k v) : (s.setCtx k v).acts = s.acts := rfl
@[simp] theorem setCtx_taps (k v) : (s.setCtx k v).taps = s.taps := rfl
@[simp] theorem setCtx_engines (k v) : (s.setCtx k v).engines = s.engines := rfl
@[simp] theorem setCtx_flags (k v) : (s.setCtx k v).flags = s.flags := rfl
@[simp] theorem setCtx_pins (k v) : (s.setCtx k v).pins = s.pins := rfl
@[simp] theorem setCtx_regions (k v) : (s.setCtx k v).regions = s.regions := rfl
@[simp] theorem setCtx_objs (k v) : (s.setCtx k v).objs = s.objs := rfl
@[simp] theorem setCtx_fc (k v) : (s.setCtx k v).fc = s.fc := rfl
@[simp] theorem setCtx_tims (k v) : (s.setCtx k v).tims = s.tims := rfl
@[simp] theorem setCtx_ref (k v) : (s.setCtx k v).ref = s.ref := rfl
@[simp] theorem setCtx_groups (k v) : (s.setCtx k v).groups = s.groups := rfl
@[simp] theorem setCtx_trg (k v) : (s.setCtx k v).trg = s.trg := rfl
@[simp] theorem setCtx_acqs (k v) : (s.setCtx k v).acqs = s.acqs := rfl
@[simp] theorem setCtx_log (k v) : (s.setCtx k v).log = s.log := rfl
@[simp] theorem setCtx_cal (k v) : (s.setCtx k v).cal = s.cal := rfl
@[simp] theorem setCtx_calLanes (k v) : (s.setCtx k v).calLanes = s.calLanes := rfl
@[simp] theorem setCtx_ez (k v) : (s.setCtx k v).ez = s.ez := rfl
@[simp] theorem setCtx_ports (k v) : (s.setCtx k v).ports = s.ports := rfl
@[simp] theorem setCtx_ea (k v) : (s.setCtx k v).ea = s.ea := rfl
@[simp] theorem setCtx_ump (k v) : (s.setCtx k v).ump = s.ump := rfl
@[simp] theorem setCtx_umpSrcs (k v) : (s.setCtx k v).umpSrcs = s.umpSrcs := rfl
@[simp] theorem setCtx_bh (k v) : (s.setCtx k v).bh = s.bh := rfl
@[simp] theorem setCtx_power (k v) : (s.setCtx k v).power = s.power := rfl
@[simp] theorem setCtx_rs (k v) : (s.setCtx k v).rs = s.rs := rfl
@[simp] theorem setCtx_sns (k v) : (s.setCtx k v).sns = s.sns := rfl
@[simp] theorem setCtx_host_qps (k v) : (s.setCtx k v).host.qps = s.host.qps := rfl
@[simp] theorem setCtx_host_inflight (k v) : (s.setCtx k v).host.inflight = s.host.inflight := rfl
@[simp] theorem setCtx_host_fetchSeq (k v) : (s.setCtx k v).host.fetchSeq = s.host.fetchSeq := rfl
@[simp] theorem setCtx_host_lastSq (k v) : (s.setCtx k v).host.lastSq = s.host.lastSq := rfl
@[simp] theorem setCtx_host_peak (k v) : (s.setCtx k v).host.peak = s.host.peak := rfl
@[simp] theorem setCtx_host_claims (k v) : (s.setCtx k v).host.claims = s.host.claims := rfl
@[simp] theorem setCtx_host_locks (k v) : (s.setCtx k v).host.locks = s.host.locks := rfl
@[simp] theorem setCtx_host_apSel (k v) : (s.setCtx k v).host.apSel = s.host.apSel := rfl
@[simp] theorem setCtx_host_ap (k v) : (s.setCtx k v).host.ap = s.host.ap := rfl
@[simp] theorem setCtx_host_msix (k v) : (s.setCtx k v).host.msix = s.host.msix := rfl
@[simp] theorem setCtx_host_msixPend (k v) : (s.setCtx k v).host.msixPend = s.host.msixPend := rfl
@[simp] theorem setCtx_host_sharedFree (k v) : (s.setCtx k v).host.sharedFree = s.host.sharedFree := rfl
@[simp] theorem setCtx_host_pci (k v) : (s.setCtx k v).host.pci = s.host.pci := rfl
@[simp] theorem setCtx_ctx (j k v) :
    (s.setCtx k v).ctx j = if j = k then v else s.ctx j := SMap.get_put _ _ _ _ _
@[simp] theorem setCtx_lane (k v j) : (s.setCtx k v).lane j = s.lane j := rfl
@[simp] theorem setCtx_chan (k v j) : (s.setCtx k v).chan j = s.chan j := rfl
@[simp] theorem setCtx_tset (k v j) : (s.setCtx k v).tset j = s.tset j := rfl
@[simp] theorem setCtx_act (k v j) : (s.setCtx k v).act j = s.act j := rfl
@[simp] theorem setCtx_tap (k v j) : (s.setCtx k v).tap j = s.tap j := rfl
@[simp] theorem setCtx_eng (k v j) : (s.setCtx k v).eng j = s.eng j := rfl
@[simp] theorem setCtx_region (k v j) : (s.setCtx k v).region j = s.region j := rfl
@[simp] theorem setCtx_obj (k v j) : (s.setCtx k v).obj j = s.obj j := rfl
@[simp] theorem setCtx_tim (k v j) : (s.setCtx k v).tim j = s.tim j := rfl
@[simp] theorem setCtx_group (k v j) : (s.setCtx k v).group j = s.group j := rfl
@[simp] theorem setCtx_acq (k v j) : (s.setCtx k v).acq j = s.acq j := rfl
@[simp] theorem setCtx_calLane (k v j) : (s.setCtx k v).calLane j = s.calLane j := rfl
@[simp] theorem setCtx_port (k v j) : (s.setCtx k v).port j = s.port j := rfl
@[simp] theorem setCtx_src (k v j) : (s.setCtx k v).src j = s.src j := rfl
@[simp] theorem setCtx_sn (k v j) : (s.setCtx k v).sn j = s.sn j := rfl
@[simp] theorem setCtx_qp (k v j) : (s.setCtx k v).qp j = s.qp j := rfl
@[simp] theorem setCtx_lock (k v j) : (s.setCtx k v).lock j = s.lock j := rfl
@[simp] theorem setCtx_claim (k v j) : (s.setCtx k v).claim j = s.claim j := rfl
@[simp] theorem setCtx_geom (k v j) : (s.setCtx k v).geom j = s.geom j := rfl
@[simp] theorem setCtx_nv (k v j) : (s.setCtx k v).nv j = s.nv j := rfl

/-! setQp. -/

@[simp] theorem updQp_eq (k f) : s.updQp k f = s.setQp k (f (s.qp k)) := rfl
@[simp] theorem setQp_pending (k v) : (s.setQp k v).pending = s.pending := rfl
@[simp] theorem setQp_now (k v) : (s.setQp k v).now = s.now := rfl
@[simp] theorem setQp_freeCount (k v) : (s.setQp k v).freeCount = s.freeCount := rfl
@[simp] theorem setQp_out (k v) : (s.setQp k v).out = s.out := rfl
@[simp] theorem setQp_dev (k v) : (s.setQp k v).dev = s.dev := rfl
@[simp] theorem setQp_lanes (k v) : (s.setQp k v).lanes = s.lanes := rfl
@[simp] theorem setQp_chans (k v) : (s.setQp k v).chans = s.chans := rfl
@[simp] theorem setQp_tsets (k v) : (s.setQp k v).tsets = s.tsets := rfl
@[simp] theorem setQp_acts (k v) : (s.setQp k v).acts = s.acts := rfl
@[simp] theorem setQp_taps (k v) : (s.setQp k v).taps = s.taps := rfl
@[simp] theorem setQp_engines (k v) : (s.setQp k v).engines = s.engines := rfl
@[simp] theorem setQp_flags (k v) : (s.setQp k v).flags = s.flags := rfl
@[simp] theorem setQp_pins (k v) : (s.setQp k v).pins = s.pins := rfl
@[simp] theorem setQp_regions (k v) : (s.setQp k v).regions = s.regions := rfl
@[simp] theorem setQp_objs (k v) : (s.setQp k v).objs = s.objs := rfl
@[simp] theorem setQp_fc (k v) : (s.setQp k v).fc = s.fc := rfl
@[simp] theorem setQp_tims (k v) : (s.setQp k v).tims = s.tims := rfl
@[simp] theorem setQp_ref (k v) : (s.setQp k v).ref = s.ref := rfl
@[simp] theorem setQp_groups (k v) : (s.setQp k v).groups = s.groups := rfl
@[simp] theorem setQp_trg (k v) : (s.setQp k v).trg = s.trg := rfl
@[simp] theorem setQp_acqs (k v) : (s.setQp k v).acqs = s.acqs := rfl
@[simp] theorem setQp_log (k v) : (s.setQp k v).log = s.log := rfl
@[simp] theorem setQp_cal (k v) : (s.setQp k v).cal = s.cal := rfl
@[simp] theorem setQp_calLanes (k v) : (s.setQp k v).calLanes = s.calLanes := rfl
@[simp] theorem setQp_ez (k v) : (s.setQp k v).ez = s.ez := rfl
@[simp] theorem setQp_ports (k v) : (s.setQp k v).ports = s.ports := rfl
@[simp] theorem setQp_ea (k v) : (s.setQp k v).ea = s.ea := rfl
@[simp] theorem setQp_ump (k v) : (s.setQp k v).ump = s.ump := rfl
@[simp] theorem setQp_umpSrcs (k v) : (s.setQp k v).umpSrcs = s.umpSrcs := rfl
@[simp] theorem setQp_bh (k v) : (s.setQp k v).bh = s.bh := rfl
@[simp] theorem setQp_power (k v) : (s.setQp k v).power = s.power := rfl
@[simp] theorem setQp_rs (k v) : (s.setQp k v).rs = s.rs := rfl
@[simp] theorem setQp_sns (k v) : (s.setQp k v).sns = s.sns := rfl
@[simp] theorem setQp_host_ctxs (k v) : (s.setQp k v).host.ctxs = s.host.ctxs := rfl
@[simp] theorem setQp_host_inflight (k v) : (s.setQp k v).host.inflight = s.host.inflight := rfl
@[simp] theorem setQp_host_fetchSeq (k v) : (s.setQp k v).host.fetchSeq = s.host.fetchSeq := rfl
@[simp] theorem setQp_host_lastSq (k v) : (s.setQp k v).host.lastSq = s.host.lastSq := rfl
@[simp] theorem setQp_host_peak (k v) : (s.setQp k v).host.peak = s.host.peak := rfl
@[simp] theorem setQp_host_claims (k v) : (s.setQp k v).host.claims = s.host.claims := rfl
@[simp] theorem setQp_host_locks (k v) : (s.setQp k v).host.locks = s.host.locks := rfl
@[simp] theorem setQp_host_apSel (k v) : (s.setQp k v).host.apSel = s.host.apSel := rfl
@[simp] theorem setQp_host_ap (k v) : (s.setQp k v).host.ap = s.host.ap := rfl
@[simp] theorem setQp_host_msix (k v) : (s.setQp k v).host.msix = s.host.msix := rfl
@[simp] theorem setQp_host_msixPend (k v) : (s.setQp k v).host.msixPend = s.host.msixPend := rfl
@[simp] theorem setQp_host_sharedFree (k v) : (s.setQp k v).host.sharedFree = s.host.sharedFree := rfl
@[simp] theorem setQp_host_pci (k v) : (s.setQp k v).host.pci = s.host.pci := rfl
@[simp] theorem setQp_qp (j k v) :
    (s.setQp k v).qp j = if j = k then v else s.qp j := SMap.get_put _ _ _ _ _
@[simp] theorem setQp_lane (k v j) : (s.setQp k v).lane j = s.lane j := rfl
@[simp] theorem setQp_chan (k v j) : (s.setQp k v).chan j = s.chan j := rfl
@[simp] theorem setQp_tset (k v j) : (s.setQp k v).tset j = s.tset j := rfl
@[simp] theorem setQp_act (k v j) : (s.setQp k v).act j = s.act j := rfl
@[simp] theorem setQp_tap (k v j) : (s.setQp k v).tap j = s.tap j := rfl
@[simp] theorem setQp_eng (k v j) : (s.setQp k v).eng j = s.eng j := rfl
@[simp] theorem setQp_region (k v j) : (s.setQp k v).region j = s.region j := rfl
@[simp] theorem setQp_obj (k v j) : (s.setQp k v).obj j = s.obj j := rfl
@[simp] theorem setQp_tim (k v j) : (s.setQp k v).tim j = s.tim j := rfl
@[simp] theorem setQp_group (k v j) : (s.setQp k v).group j = s.group j := rfl
@[simp] theorem setQp_acq (k v j) : (s.setQp k v).acq j = s.acq j := rfl
@[simp] theorem setQp_calLane (k v j) : (s.setQp k v).calLane j = s.calLane j := rfl
@[simp] theorem setQp_port (k v j) : (s.setQp k v).port j = s.port j := rfl
@[simp] theorem setQp_src (k v j) : (s.setQp k v).src j = s.src j := rfl
@[simp] theorem setQp_sn (k v j) : (s.setQp k v).sn j = s.sn j := rfl
@[simp] theorem setQp_ctx (k v j) : (s.setQp k v).ctx j = s.ctx j := rfl
@[simp] theorem setQp_lock (k v j) : (s.setQp k v).lock j = s.lock j := rfl
@[simp] theorem setQp_claim (k v j) : (s.setQp k v).claim j = s.claim j := rfl
@[simp] theorem setQp_geom (k v j) : (s.setQp k v).geom j = s.geom j := rfl
@[simp] theorem setQp_nv (k v j) : (s.setQp k v).nv j = s.nv j := rfl

/-! setLock. -/

@[simp] theorem updLock_eq (k f) : s.updLock k f = s.setLock k (f (s.lock k)) := rfl
@[simp] theorem setLock_pending (k v) : (s.setLock k v).pending = s.pending := rfl
@[simp] theorem setLock_now (k v) : (s.setLock k v).now = s.now := rfl
@[simp] theorem setLock_freeCount (k v) : (s.setLock k v).freeCount = s.freeCount := rfl
@[simp] theorem setLock_out (k v) : (s.setLock k v).out = s.out := rfl
@[simp] theorem setLock_dev (k v) : (s.setLock k v).dev = s.dev := rfl
@[simp] theorem setLock_lanes (k v) : (s.setLock k v).lanes = s.lanes := rfl
@[simp] theorem setLock_chans (k v) : (s.setLock k v).chans = s.chans := rfl
@[simp] theorem setLock_tsets (k v) : (s.setLock k v).tsets = s.tsets := rfl
@[simp] theorem setLock_acts (k v) : (s.setLock k v).acts = s.acts := rfl
@[simp] theorem setLock_taps (k v) : (s.setLock k v).taps = s.taps := rfl
@[simp] theorem setLock_engines (k v) : (s.setLock k v).engines = s.engines := rfl
@[simp] theorem setLock_flags (k v) : (s.setLock k v).flags = s.flags := rfl
@[simp] theorem setLock_pins (k v) : (s.setLock k v).pins = s.pins := rfl
@[simp] theorem setLock_regions (k v) : (s.setLock k v).regions = s.regions := rfl
@[simp] theorem setLock_objs (k v) : (s.setLock k v).objs = s.objs := rfl
@[simp] theorem setLock_fc (k v) : (s.setLock k v).fc = s.fc := rfl
@[simp] theorem setLock_tims (k v) : (s.setLock k v).tims = s.tims := rfl
@[simp] theorem setLock_ref (k v) : (s.setLock k v).ref = s.ref := rfl
@[simp] theorem setLock_groups (k v) : (s.setLock k v).groups = s.groups := rfl
@[simp] theorem setLock_trg (k v) : (s.setLock k v).trg = s.trg := rfl
@[simp] theorem setLock_acqs (k v) : (s.setLock k v).acqs = s.acqs := rfl
@[simp] theorem setLock_log (k v) : (s.setLock k v).log = s.log := rfl
@[simp] theorem setLock_cal (k v) : (s.setLock k v).cal = s.cal := rfl
@[simp] theorem setLock_calLanes (k v) : (s.setLock k v).calLanes = s.calLanes := rfl
@[simp] theorem setLock_ez (k v) : (s.setLock k v).ez = s.ez := rfl
@[simp] theorem setLock_ports (k v) : (s.setLock k v).ports = s.ports := rfl
@[simp] theorem setLock_ea (k v) : (s.setLock k v).ea = s.ea := rfl
@[simp] theorem setLock_ump (k v) : (s.setLock k v).ump = s.ump := rfl
@[simp] theorem setLock_umpSrcs (k v) : (s.setLock k v).umpSrcs = s.umpSrcs := rfl
@[simp] theorem setLock_bh (k v) : (s.setLock k v).bh = s.bh := rfl
@[simp] theorem setLock_power (k v) : (s.setLock k v).power = s.power := rfl
@[simp] theorem setLock_rs (k v) : (s.setLock k v).rs = s.rs := rfl
@[simp] theorem setLock_sns (k v) : (s.setLock k v).sns = s.sns := rfl
@[simp] theorem setLock_host_ctxs (k v) : (s.setLock k v).host.ctxs = s.host.ctxs := rfl
@[simp] theorem setLock_host_qps (k v) : (s.setLock k v).host.qps = s.host.qps := rfl
@[simp] theorem setLock_host_inflight (k v) : (s.setLock k v).host.inflight = s.host.inflight := rfl
@[simp] theorem setLock_host_fetchSeq (k v) : (s.setLock k v).host.fetchSeq = s.host.fetchSeq := rfl
@[simp] theorem setLock_host_lastSq (k v) : (s.setLock k v).host.lastSq = s.host.lastSq := rfl
@[simp] theorem setLock_host_peak (k v) : (s.setLock k v).host.peak = s.host.peak := rfl
@[simp] theorem setLock_host_claims (k v) : (s.setLock k v).host.claims = s.host.claims := rfl
@[simp] theorem setLock_host_apSel (k v) : (s.setLock k v).host.apSel = s.host.apSel := rfl
@[simp] theorem setLock_host_ap (k v) : (s.setLock k v).host.ap = s.host.ap := rfl
@[simp] theorem setLock_host_msix (k v) : (s.setLock k v).host.msix = s.host.msix := rfl
@[simp] theorem setLock_host_msixPend (k v) : (s.setLock k v).host.msixPend = s.host.msixPend := rfl
@[simp] theorem setLock_host_sharedFree (k v) : (s.setLock k v).host.sharedFree = s.host.sharedFree := rfl
@[simp] theorem setLock_host_pci (k v) : (s.setLock k v).host.pci = s.host.pci := rfl
@[simp] theorem setLock_lock (j k v) :
    (s.setLock k v).lock j = if j = k then v else s.lock j := SMap.get_put _ _ _ _ _
@[simp] theorem setLock_lane (k v j) : (s.setLock k v).lane j = s.lane j := rfl
@[simp] theorem setLock_chan (k v j) : (s.setLock k v).chan j = s.chan j := rfl
@[simp] theorem setLock_tset (k v j) : (s.setLock k v).tset j = s.tset j := rfl
@[simp] theorem setLock_act (k v j) : (s.setLock k v).act j = s.act j := rfl
@[simp] theorem setLock_tap (k v j) : (s.setLock k v).tap j = s.tap j := rfl
@[simp] theorem setLock_eng (k v j) : (s.setLock k v).eng j = s.eng j := rfl
@[simp] theorem setLock_region (k v j) : (s.setLock k v).region j = s.region j := rfl
@[simp] theorem setLock_obj (k v j) : (s.setLock k v).obj j = s.obj j := rfl
@[simp] theorem setLock_tim (k v j) : (s.setLock k v).tim j = s.tim j := rfl
@[simp] theorem setLock_group (k v j) : (s.setLock k v).group j = s.group j := rfl
@[simp] theorem setLock_acq (k v j) : (s.setLock k v).acq j = s.acq j := rfl
@[simp] theorem setLock_calLane (k v j) : (s.setLock k v).calLane j = s.calLane j := rfl
@[simp] theorem setLock_port (k v j) : (s.setLock k v).port j = s.port j := rfl
@[simp] theorem setLock_src (k v j) : (s.setLock k v).src j = s.src j := rfl
@[simp] theorem setLock_sn (k v j) : (s.setLock k v).sn j = s.sn j := rfl
@[simp] theorem setLock_ctx (k v j) : (s.setLock k v).ctx j = s.ctx j := rfl
@[simp] theorem setLock_qp (k v j) : (s.setLock k v).qp j = s.qp j := rfl
@[simp] theorem setLock_claim (k v j) : (s.setLock k v).claim j = s.claim j := rfl
@[simp] theorem setLock_geom (k v j) : (s.setLock k v).geom j = s.geom j := rfl
@[simp] theorem setLock_nv (k v j) : (s.setLock k v).nv j = s.nv j := rfl

/-! setClaim. -/

@[simp] theorem updClaim_eq (k f) : s.updClaim k f = s.setClaim k (f (s.claim k)) := rfl
@[simp] theorem setClaim_pending (k v) : (s.setClaim k v).pending = s.pending := rfl
@[simp] theorem setClaim_now (k v) : (s.setClaim k v).now = s.now := rfl
@[simp] theorem setClaim_freeCount (k v) : (s.setClaim k v).freeCount = s.freeCount := rfl
@[simp] theorem setClaim_out (k v) : (s.setClaim k v).out = s.out := rfl
@[simp] theorem setClaim_dev (k v) : (s.setClaim k v).dev = s.dev := rfl
@[simp] theorem setClaim_lanes (k v) : (s.setClaim k v).lanes = s.lanes := rfl
@[simp] theorem setClaim_chans (k v) : (s.setClaim k v).chans = s.chans := rfl
@[simp] theorem setClaim_tsets (k v) : (s.setClaim k v).tsets = s.tsets := rfl
@[simp] theorem setClaim_acts (k v) : (s.setClaim k v).acts = s.acts := rfl
@[simp] theorem setClaim_taps (k v) : (s.setClaim k v).taps = s.taps := rfl
@[simp] theorem setClaim_engines (k v) : (s.setClaim k v).engines = s.engines := rfl
@[simp] theorem setClaim_flags (k v) : (s.setClaim k v).flags = s.flags := rfl
@[simp] theorem setClaim_pins (k v) : (s.setClaim k v).pins = s.pins := rfl
@[simp] theorem setClaim_regions (k v) : (s.setClaim k v).regions = s.regions := rfl
@[simp] theorem setClaim_objs (k v) : (s.setClaim k v).objs = s.objs := rfl
@[simp] theorem setClaim_fc (k v) : (s.setClaim k v).fc = s.fc := rfl
@[simp] theorem setClaim_tims (k v) : (s.setClaim k v).tims = s.tims := rfl
@[simp] theorem setClaim_ref (k v) : (s.setClaim k v).ref = s.ref := rfl
@[simp] theorem setClaim_groups (k v) : (s.setClaim k v).groups = s.groups := rfl
@[simp] theorem setClaim_trg (k v) : (s.setClaim k v).trg = s.trg := rfl
@[simp] theorem setClaim_acqs (k v) : (s.setClaim k v).acqs = s.acqs := rfl
@[simp] theorem setClaim_log (k v) : (s.setClaim k v).log = s.log := rfl
@[simp] theorem setClaim_cal (k v) : (s.setClaim k v).cal = s.cal := rfl
@[simp] theorem setClaim_calLanes (k v) : (s.setClaim k v).calLanes = s.calLanes := rfl
@[simp] theorem setClaim_ez (k v) : (s.setClaim k v).ez = s.ez := rfl
@[simp] theorem setClaim_ports (k v) : (s.setClaim k v).ports = s.ports := rfl
@[simp] theorem setClaim_ea (k v) : (s.setClaim k v).ea = s.ea := rfl
@[simp] theorem setClaim_ump (k v) : (s.setClaim k v).ump = s.ump := rfl
@[simp] theorem setClaim_umpSrcs (k v) : (s.setClaim k v).umpSrcs = s.umpSrcs := rfl
@[simp] theorem setClaim_bh (k v) : (s.setClaim k v).bh = s.bh := rfl
@[simp] theorem setClaim_power (k v) : (s.setClaim k v).power = s.power := rfl
@[simp] theorem setClaim_rs (k v) : (s.setClaim k v).rs = s.rs := rfl
@[simp] theorem setClaim_sns (k v) : (s.setClaim k v).sns = s.sns := rfl
@[simp] theorem setClaim_host_ctxs (k v) : (s.setClaim k v).host.ctxs = s.host.ctxs := rfl
@[simp] theorem setClaim_host_qps (k v) : (s.setClaim k v).host.qps = s.host.qps := rfl
@[simp] theorem setClaim_host_inflight (k v) : (s.setClaim k v).host.inflight = s.host.inflight := rfl
@[simp] theorem setClaim_host_fetchSeq (k v) : (s.setClaim k v).host.fetchSeq = s.host.fetchSeq := rfl
@[simp] theorem setClaim_host_lastSq (k v) : (s.setClaim k v).host.lastSq = s.host.lastSq := rfl
@[simp] theorem setClaim_host_peak (k v) : (s.setClaim k v).host.peak = s.host.peak := rfl
@[simp] theorem setClaim_host_locks (k v) : (s.setClaim k v).host.locks = s.host.locks := rfl
@[simp] theorem setClaim_host_apSel (k v) : (s.setClaim k v).host.apSel = s.host.apSel := rfl
@[simp] theorem setClaim_host_ap (k v) : (s.setClaim k v).host.ap = s.host.ap := rfl
@[simp] theorem setClaim_host_msix (k v) : (s.setClaim k v).host.msix = s.host.msix := rfl
@[simp] theorem setClaim_host_msixPend (k v) : (s.setClaim k v).host.msixPend = s.host.msixPend := rfl
@[simp] theorem setClaim_host_sharedFree (k v) : (s.setClaim k v).host.sharedFree = s.host.sharedFree := rfl
@[simp] theorem setClaim_host_pci (k v) : (s.setClaim k v).host.pci = s.host.pci := rfl
@[simp] theorem setClaim_claim (j k v) :
    (s.setClaim k v).claim j = if j = k then v else s.claim j := SMap.get_put _ _ _ _ _
@[simp] theorem setClaim_lane (k v j) : (s.setClaim k v).lane j = s.lane j := rfl
@[simp] theorem setClaim_chan (k v j) : (s.setClaim k v).chan j = s.chan j := rfl
@[simp] theorem setClaim_tset (k v j) : (s.setClaim k v).tset j = s.tset j := rfl
@[simp] theorem setClaim_act (k v j) : (s.setClaim k v).act j = s.act j := rfl
@[simp] theorem setClaim_tap (k v j) : (s.setClaim k v).tap j = s.tap j := rfl
@[simp] theorem setClaim_eng (k v j) : (s.setClaim k v).eng j = s.eng j := rfl
@[simp] theorem setClaim_region (k v j) : (s.setClaim k v).region j = s.region j := rfl
@[simp] theorem setClaim_obj (k v j) : (s.setClaim k v).obj j = s.obj j := rfl
@[simp] theorem setClaim_tim (k v j) : (s.setClaim k v).tim j = s.tim j := rfl
@[simp] theorem setClaim_group (k v j) : (s.setClaim k v).group j = s.group j := rfl
@[simp] theorem setClaim_acq (k v j) : (s.setClaim k v).acq j = s.acq j := rfl
@[simp] theorem setClaim_calLane (k v j) : (s.setClaim k v).calLane j = s.calLane j := rfl
@[simp] theorem setClaim_port (k v j) : (s.setClaim k v).port j = s.port j := rfl
@[simp] theorem setClaim_src (k v j) : (s.setClaim k v).src j = s.src j := rfl
@[simp] theorem setClaim_sn (k v j) : (s.setClaim k v).sn j = s.sn j := rfl
@[simp] theorem setClaim_ctx (k v j) : (s.setClaim k v).ctx j = s.ctx j := rfl
@[simp] theorem setClaim_qp (k v j) : (s.setClaim k v).qp j = s.qp j := rfl
@[simp] theorem setClaim_lock (k v j) : (s.setClaim k v).lock j = s.lock j := rfl
@[simp] theorem setClaim_geom (k v j) : (s.setClaim k v).geom j = s.geom j := rfl
@[simp] theorem setClaim_nv (k v j) : (s.setClaim k v).nv j = s.nv j := rfl

/-! setGeom. -/

@[simp] theorem updGeom_eq (k f) : s.updGeom k f = s.setGeom k (f (s.geom k)) := rfl
@[simp] theorem setGeom_pending (k v) : (s.setGeom k v).pending = s.pending := rfl
@[simp] theorem setGeom_now (k v) : (s.setGeom k v).now = s.now := rfl
@[simp] theorem setGeom_freeCount (k v) : (s.setGeom k v).freeCount = s.freeCount := rfl
@[simp] theorem setGeom_out (k v) : (s.setGeom k v).out = s.out := rfl
@[simp] theorem setGeom_dev (k v) : (s.setGeom k v).dev = s.dev := rfl
@[simp] theorem setGeom_lanes (k v) : (s.setGeom k v).lanes = s.lanes := rfl
@[simp] theorem setGeom_chans (k v) : (s.setGeom k v).chans = s.chans := rfl
@[simp] theorem setGeom_tsets (k v) : (s.setGeom k v).tsets = s.tsets := rfl
@[simp] theorem setGeom_acts (k v) : (s.setGeom k v).acts = s.acts := rfl
@[simp] theorem setGeom_taps (k v) : (s.setGeom k v).taps = s.taps := rfl
@[simp] theorem setGeom_engines (k v) : (s.setGeom k v).engines = s.engines := rfl
@[simp] theorem setGeom_flags (k v) : (s.setGeom k v).flags = s.flags := rfl
@[simp] theorem setGeom_pins (k v) : (s.setGeom k v).pins = s.pins := rfl
@[simp] theorem setGeom_regions (k v) : (s.setGeom k v).regions = s.regions := rfl
@[simp] theorem setGeom_objs (k v) : (s.setGeom k v).objs = s.objs := rfl
@[simp] theorem setGeom_tims (k v) : (s.setGeom k v).tims = s.tims := rfl
@[simp] theorem setGeom_ref (k v) : (s.setGeom k v).ref = s.ref := rfl
@[simp] theorem setGeom_groups (k v) : (s.setGeom k v).groups = s.groups := rfl
@[simp] theorem setGeom_trg (k v) : (s.setGeom k v).trg = s.trg := rfl
@[simp] theorem setGeom_acqs (k v) : (s.setGeom k v).acqs = s.acqs := rfl
@[simp] theorem setGeom_log (k v) : (s.setGeom k v).log = s.log := rfl
@[simp] theorem setGeom_cal (k v) : (s.setGeom k v).cal = s.cal := rfl
@[simp] theorem setGeom_calLanes (k v) : (s.setGeom k v).calLanes = s.calLanes := rfl
@[simp] theorem setGeom_ez (k v) : (s.setGeom k v).ez = s.ez := rfl
@[simp] theorem setGeom_ports (k v) : (s.setGeom k v).ports = s.ports := rfl
@[simp] theorem setGeom_ea (k v) : (s.setGeom k v).ea = s.ea := rfl
@[simp] theorem setGeom_host (k v) : (s.setGeom k v).host = s.host := rfl
@[simp] theorem setGeom_ump (k v) : (s.setGeom k v).ump = s.ump := rfl
@[simp] theorem setGeom_umpSrcs (k v) : (s.setGeom k v).umpSrcs = s.umpSrcs := rfl
@[simp] theorem setGeom_bh (k v) : (s.setGeom k v).bh = s.bh := rfl
@[simp] theorem setGeom_power (k v) : (s.setGeom k v).power = s.power := rfl
@[simp] theorem setGeom_rs (k v) : (s.setGeom k v).rs = s.rs := rfl
@[simp] theorem setGeom_sns (k v) : (s.setGeom k v).sns = s.sns := rfl
@[simp] theorem setGeom_fc_ignored (k v) : (s.setGeom k v).fc.ignored = s.fc.ignored := rfl
@[simp] theorem setGeom_fc_refused (k v) : (s.setGeom k v).fc.refused = s.fc.refused := rfl
@[simp] theorem setGeom_fc_drainRefused (k v) : (s.setGeom k v).fc.drainRefused = s.fc.drainRefused := rfl
@[simp] theorem setGeom_fc_drainBytes (k v) : (s.setGeom k v).fc.drainBytes = s.fc.drainBytes := rfl
@[simp] theorem setGeom_fc_hbmUe (k v) : (s.setGeom k v).fc.hbmUe = s.fc.hbmUe := rfl
@[simp] theorem setGeom_fc_drainLast (k v) : (s.setGeom k v).fc.drainLast = s.fc.drainLast := rfl
@[simp] theorem setGeom_fc_geomPast (k v) : (s.setGeom k v).fc.geomPast = s.fc.geomPast := rfl
@[simp] theorem setGeom_fc_nv (k v) : (s.setGeom k v).fc.nv = s.fc.nv := rfl
@[simp] theorem setGeom_fc_queue (k v) : (s.setGeom k v).fc.queue = s.fc.queue := rfl
@[simp] theorem setGeom_fc_zeroing (k v) : (s.setGeom k v).fc.zeroing = s.fc.zeroing := rfl
@[simp] theorem setGeom_fc_job (k v) : (s.setGeom k v).fc.job = s.fc.job := rfl
@[simp] theorem setGeom_fc_merges (k v) : (s.setGeom k v).fc.merges = s.fc.merges := rfl
@[simp] theorem setGeom_fc_drainSeq (k v) : (s.setGeom k v).fc.drainSeq = s.fc.drainSeq := rfl
@[simp] theorem setGeom_geom (j k v) :
    (s.setGeom k v).geom j = if j = k then v else s.geom j := SMap.get_put _ _ _ _ _
@[simp] theorem setGeom_lane (k v j) : (s.setGeom k v).lane j = s.lane j := rfl
@[simp] theorem setGeom_chan (k v j) : (s.setGeom k v).chan j = s.chan j := rfl
@[simp] theorem setGeom_tset (k v j) : (s.setGeom k v).tset j = s.tset j := rfl
@[simp] theorem setGeom_act (k v j) : (s.setGeom k v).act j = s.act j := rfl
@[simp] theorem setGeom_tap (k v j) : (s.setGeom k v).tap j = s.tap j := rfl
@[simp] theorem setGeom_eng (k v j) : (s.setGeom k v).eng j = s.eng j := rfl
@[simp] theorem setGeom_region (k v j) : (s.setGeom k v).region j = s.region j := rfl
@[simp] theorem setGeom_obj (k v j) : (s.setGeom k v).obj j = s.obj j := rfl
@[simp] theorem setGeom_tim (k v j) : (s.setGeom k v).tim j = s.tim j := rfl
@[simp] theorem setGeom_group (k v j) : (s.setGeom k v).group j = s.group j := rfl
@[simp] theorem setGeom_acq (k v j) : (s.setGeom k v).acq j = s.acq j := rfl
@[simp] theorem setGeom_calLane (k v j) : (s.setGeom k v).calLane j = s.calLane j := rfl
@[simp] theorem setGeom_port (k v j) : (s.setGeom k v).port j = s.port j := rfl
@[simp] theorem setGeom_src (k v j) : (s.setGeom k v).src j = s.src j := rfl
@[simp] theorem setGeom_sn (k v j) : (s.setGeom k v).sn j = s.sn j := rfl
@[simp] theorem setGeom_ctx (k v j) : (s.setGeom k v).ctx j = s.ctx j := rfl
@[simp] theorem setGeom_qp (k v j) : (s.setGeom k v).qp j = s.qp j := rfl
@[simp] theorem setGeom_lock (k v j) : (s.setGeom k v).lock j = s.lock j := rfl
@[simp] theorem setGeom_claim (k v j) : (s.setGeom k v).claim j = s.claim j := rfl
@[simp] theorem setGeom_nv (k v j) : (s.setGeom k v).nv j = s.nv j := rfl

/-! setNv. -/

@[simp] theorem updNv_eq (k f) : s.updNv k f = s.setNv k (f (s.nv k)) := rfl
@[simp] theorem setNv_pending (k v) : (s.setNv k v).pending = s.pending := rfl
@[simp] theorem setNv_now (k v) : (s.setNv k v).now = s.now := rfl
@[simp] theorem setNv_freeCount (k v) : (s.setNv k v).freeCount = s.freeCount := rfl
@[simp] theorem setNv_out (k v) : (s.setNv k v).out = s.out := rfl
@[simp] theorem setNv_dev (k v) : (s.setNv k v).dev = s.dev := rfl
@[simp] theorem setNv_lanes (k v) : (s.setNv k v).lanes = s.lanes := rfl
@[simp] theorem setNv_chans (k v) : (s.setNv k v).chans = s.chans := rfl
@[simp] theorem setNv_tsets (k v) : (s.setNv k v).tsets = s.tsets := rfl
@[simp] theorem setNv_acts (k v) : (s.setNv k v).acts = s.acts := rfl
@[simp] theorem setNv_taps (k v) : (s.setNv k v).taps = s.taps := rfl
@[simp] theorem setNv_engines (k v) : (s.setNv k v).engines = s.engines := rfl
@[simp] theorem setNv_flags (k v) : (s.setNv k v).flags = s.flags := rfl
@[simp] theorem setNv_pins (k v) : (s.setNv k v).pins = s.pins := rfl
@[simp] theorem setNv_regions (k v) : (s.setNv k v).regions = s.regions := rfl
@[simp] theorem setNv_objs (k v) : (s.setNv k v).objs = s.objs := rfl
@[simp] theorem setNv_tims (k v) : (s.setNv k v).tims = s.tims := rfl
@[simp] theorem setNv_ref (k v) : (s.setNv k v).ref = s.ref := rfl
@[simp] theorem setNv_groups (k v) : (s.setNv k v).groups = s.groups := rfl
@[simp] theorem setNv_trg (k v) : (s.setNv k v).trg = s.trg := rfl
@[simp] theorem setNv_acqs (k v) : (s.setNv k v).acqs = s.acqs := rfl
@[simp] theorem setNv_log (k v) : (s.setNv k v).log = s.log := rfl
@[simp] theorem setNv_cal (k v) : (s.setNv k v).cal = s.cal := rfl
@[simp] theorem setNv_calLanes (k v) : (s.setNv k v).calLanes = s.calLanes := rfl
@[simp] theorem setNv_ez (k v) : (s.setNv k v).ez = s.ez := rfl
@[simp] theorem setNv_ports (k v) : (s.setNv k v).ports = s.ports := rfl
@[simp] theorem setNv_ea (k v) : (s.setNv k v).ea = s.ea := rfl
@[simp] theorem setNv_host (k v) : (s.setNv k v).host = s.host := rfl
@[simp] theorem setNv_ump (k v) : (s.setNv k v).ump = s.ump := rfl
@[simp] theorem setNv_umpSrcs (k v) : (s.setNv k v).umpSrcs = s.umpSrcs := rfl
@[simp] theorem setNv_bh (k v) : (s.setNv k v).bh = s.bh := rfl
@[simp] theorem setNv_power (k v) : (s.setNv k v).power = s.power := rfl
@[simp] theorem setNv_rs (k v) : (s.setNv k v).rs = s.rs := rfl
@[simp] theorem setNv_sns (k v) : (s.setNv k v).sns = s.sns := rfl
@[simp] theorem setNv_fc_ignored (k v) : (s.setNv k v).fc.ignored = s.fc.ignored := rfl
@[simp] theorem setNv_fc_refused (k v) : (s.setNv k v).fc.refused = s.fc.refused := rfl
@[simp] theorem setNv_fc_drainRefused (k v) : (s.setNv k v).fc.drainRefused = s.fc.drainRefused := rfl
@[simp] theorem setNv_fc_drainBytes (k v) : (s.setNv k v).fc.drainBytes = s.fc.drainBytes := rfl
@[simp] theorem setNv_fc_hbmUe (k v) : (s.setNv k v).fc.hbmUe = s.fc.hbmUe := rfl
@[simp] theorem setNv_fc_drainLast (k v) : (s.setNv k v).fc.drainLast = s.fc.drainLast := rfl
@[simp] theorem setNv_fc_geoms (k v) : (s.setNv k v).fc.geoms = s.fc.geoms := rfl
@[simp] theorem setNv_fc_geomPast (k v) : (s.setNv k v).fc.geomPast = s.fc.geomPast := rfl
@[simp] theorem setNv_fc_queue (k v) : (s.setNv k v).fc.queue = s.fc.queue := rfl
@[simp] theorem setNv_fc_zeroing (k v) : (s.setNv k v).fc.zeroing = s.fc.zeroing := rfl
@[simp] theorem setNv_fc_job (k v) : (s.setNv k v).fc.job = s.fc.job := rfl
@[simp] theorem setNv_fc_merges (k v) : (s.setNv k v).fc.merges = s.fc.merges := rfl
@[simp] theorem setNv_fc_drainSeq (k v) : (s.setNv k v).fc.drainSeq = s.fc.drainSeq := rfl
@[simp] theorem setNv_nv (j k v) :
    (s.setNv k v).nv j = if j = k then v else s.nv j := SMap.get_put _ _ _ _ _
@[simp] theorem setNv_lane (k v j) : (s.setNv k v).lane j = s.lane j := rfl
@[simp] theorem setNv_chan (k v j) : (s.setNv k v).chan j = s.chan j := rfl
@[simp] theorem setNv_tset (k v j) : (s.setNv k v).tset j = s.tset j := rfl
@[simp] theorem setNv_act (k v j) : (s.setNv k v).act j = s.act j := rfl
@[simp] theorem setNv_tap (k v j) : (s.setNv k v).tap j = s.tap j := rfl
@[simp] theorem setNv_eng (k v j) : (s.setNv k v).eng j = s.eng j := rfl
@[simp] theorem setNv_region (k v j) : (s.setNv k v).region j = s.region j := rfl
@[simp] theorem setNv_obj (k v j) : (s.setNv k v).obj j = s.obj j := rfl
@[simp] theorem setNv_tim (k v j) : (s.setNv k v).tim j = s.tim j := rfl
@[simp] theorem setNv_group (k v j) : (s.setNv k v).group j = s.group j := rfl
@[simp] theorem setNv_acq (k v j) : (s.setNv k v).acq j = s.acq j := rfl
@[simp] theorem setNv_calLane (k v j) : (s.setNv k v).calLane j = s.calLane j := rfl
@[simp] theorem setNv_port (k v j) : (s.setNv k v).port j = s.port j := rfl
@[simp] theorem setNv_src (k v j) : (s.setNv k v).src j = s.src j := rfl
@[simp] theorem setNv_sn (k v j) : (s.setNv k v).sn j = s.sn j := rfl
@[simp] theorem setNv_ctx (k v j) : (s.setNv k v).ctx j = s.ctx j := rfl
@[simp] theorem setNv_qp (k v j) : (s.setNv k v).qp j = s.qp j := rfl
@[simp] theorem setNv_lock (k v j) : (s.setNv k v).lock j = s.lock j := rfl
@[simp] theorem setNv_claim (k v j) : (s.setNv k v).claim j = s.claim j := rfl
@[simp] theorem setNv_geom (k v j) : (s.setNv k v).geom j = s.geom j := rfl

/-! send. -/

@[simp] theorem send_out (o) : (s.send o).out = o :: s.out := rfl
@[simp] theorem send_pending (o) : (s.send o).pending = s.pending := rfl
@[simp] theorem send_now (o) : (s.send o).now = s.now := rfl
@[simp] theorem send_freeCount (o) : (s.send o).freeCount = s.freeCount := rfl
@[simp] theorem send_dev (o) : (s.send o).dev = s.dev := rfl
@[simp] theorem send_lanes (o) : (s.send o).lanes = s.lanes := rfl
@[simp] theorem send_chans (o) : (s.send o).chans = s.chans := rfl
@[simp] theorem send_tsets (o) : (s.send o).tsets = s.tsets := rfl
@[simp] theorem send_acts (o) : (s.send o).acts = s.acts := rfl
@[simp] theorem send_taps (o) : (s.send o).taps = s.taps := rfl
@[simp] theorem send_engines (o) : (s.send o).engines = s.engines := rfl
@[simp] theorem send_flags (o) : (s.send o).flags = s.flags := rfl
@[simp] theorem send_pins (o) : (s.send o).pins = s.pins := rfl
@[simp] theorem send_regions (o) : (s.send o).regions = s.regions := rfl
@[simp] theorem send_objs (o) : (s.send o).objs = s.objs := rfl
@[simp] theorem send_fc (o) : (s.send o).fc = s.fc := rfl
@[simp] theorem send_tims (o) : (s.send o).tims = s.tims := rfl
@[simp] theorem send_ref (o) : (s.send o).ref = s.ref := rfl
@[simp] theorem send_groups (o) : (s.send o).groups = s.groups := rfl
@[simp] theorem send_trg (o) : (s.send o).trg = s.trg := rfl
@[simp] theorem send_acqs (o) : (s.send o).acqs = s.acqs := rfl
@[simp] theorem send_log (o) : (s.send o).log = s.log := rfl
@[simp] theorem send_cal (o) : (s.send o).cal = s.cal := rfl
@[simp] theorem send_calLanes (o) : (s.send o).calLanes = s.calLanes := rfl
@[simp] theorem send_ez (o) : (s.send o).ez = s.ez := rfl
@[simp] theorem send_ports (o) : (s.send o).ports = s.ports := rfl
@[simp] theorem send_ea (o) : (s.send o).ea = s.ea := rfl
@[simp] theorem send_host (o) : (s.send o).host = s.host := rfl
@[simp] theorem send_ump (o) : (s.send o).ump = s.ump := rfl
@[simp] theorem send_umpSrcs (o) : (s.send o).umpSrcs = s.umpSrcs := rfl
@[simp] theorem send_bh (o) : (s.send o).bh = s.bh := rfl
@[simp] theorem send_power (o) : (s.send o).power = s.power := rfl
@[simp] theorem send_rs (o) : (s.send o).rs = s.rs := rfl
@[simp] theorem send_sns (o) : (s.send o).sns = s.sns := rfl
@[simp] theorem send_lane (o j) : (s.send o).lane j = s.lane j := rfl
@[simp] theorem send_chan (o j) : (s.send o).chan j = s.chan j := rfl
@[simp] theorem send_tset (o j) : (s.send o).tset j = s.tset j := rfl
@[simp] theorem send_act (o j) : (s.send o).act j = s.act j := rfl
@[simp] theorem send_tap (o j) : (s.send o).tap j = s.tap j := rfl
@[simp] theorem send_eng (o j) : (s.send o).eng j = s.eng j := rfl
@[simp] theorem send_region (o j) : (s.send o).region j = s.region j := rfl
@[simp] theorem send_obj (o j) : (s.send o).obj j = s.obj j := rfl
@[simp] theorem send_tim (o j) : (s.send o).tim j = s.tim j := rfl
@[simp] theorem send_group (o j) : (s.send o).group j = s.group j := rfl
@[simp] theorem send_acq (o j) : (s.send o).acq j = s.acq j := rfl
@[simp] theorem send_calLane (o j) : (s.send o).calLane j = s.calLane j := rfl
@[simp] theorem send_port (o j) : (s.send o).port j = s.port j := rfl
@[simp] theorem send_src (o j) : (s.send o).src j = s.src j := rfl
@[simp] theorem send_sn (o j) : (s.send o).sn j = s.sn j := rfl
@[simp] theorem send_ctx (o j) : (s.send o).ctx j = s.ctx j := rfl
@[simp] theorem send_qp (o j) : (s.send o).qp j = s.qp j := rfl
@[simp] theorem send_lock (o j) : (s.send o).lock j = s.lock j := rfl
@[simp] theorem send_claim (o j) : (s.send o).claim j = s.claim j := rfl
@[simp] theorem send_geom (o j) : (s.send o).geom j = s.geom j := rfl
@[simp] theorem send_nv (o j) : (s.send o).nv j = s.nv j := rfl

/-! The commands in flight: every write of them is a `withCmds`. -/

/-- The state with these commands in flight, this fetch count and this peak. -/
def withCmds (l : List Cmd) (n p : Nat) : State :=
  { s with host := { s.host with inflight := l, fetchSeq := n, peak := p } }

@[simp] theorem withCmds_inflight (l n p) : (s.withCmds l n p).host.inflight = l := rfl
@[simp] theorem withCmds_fetchSeq (l n p) : (s.withCmds l n p).host.fetchSeq = n := rfl
@[simp] theorem withCmds_peak (l n p) : (s.withCmds l n p).host.peak = p := rfl
@[simp] theorem withCmds_pending (l n p) : (s.withCmds l n p).pending = s.pending := rfl
@[simp] theorem withCmds_now (l n p) : (s.withCmds l n p).now = s.now := rfl
@[simp] theorem withCmds_freeCount (l n p) : (s.withCmds l n p).freeCount = s.freeCount := rfl
@[simp] theorem withCmds_out (l n p) : (s.withCmds l n p).out = s.out := rfl
@[simp] theorem withCmds_dev (l n p) : (s.withCmds l n p).dev = s.dev := rfl
@[simp] theorem withCmds_lanes (l n p) : (s.withCmds l n p).lanes = s.lanes := rfl
@[simp] theorem withCmds_chans (l n p) : (s.withCmds l n p).chans = s.chans := rfl
@[simp] theorem withCmds_tsets (l n p) : (s.withCmds l n p).tsets = s.tsets := rfl
@[simp] theorem withCmds_acts (l n p) : (s.withCmds l n p).acts = s.acts := rfl
@[simp] theorem withCmds_taps (l n p) : (s.withCmds l n p).taps = s.taps := rfl
@[simp] theorem withCmds_engines (l n p) : (s.withCmds l n p).engines = s.engines := rfl
@[simp] theorem withCmds_flags (l n p) : (s.withCmds l n p).flags = s.flags := rfl
@[simp] theorem withCmds_pins (l n p) : (s.withCmds l n p).pins = s.pins := rfl
@[simp] theorem withCmds_regions (l n p) : (s.withCmds l n p).regions = s.regions := rfl
@[simp] theorem withCmds_objs (l n p) : (s.withCmds l n p).objs = s.objs := rfl
@[simp] theorem withCmds_fc (l n p) : (s.withCmds l n p).fc = s.fc := rfl
@[simp] theorem withCmds_tims (l n p) : (s.withCmds l n p).tims = s.tims := rfl
@[simp] theorem withCmds_ref (l n p) : (s.withCmds l n p).ref = s.ref := rfl
@[simp] theorem withCmds_groups (l n p) : (s.withCmds l n p).groups = s.groups := rfl
@[simp] theorem withCmds_trg (l n p) : (s.withCmds l n p).trg = s.trg := rfl
@[simp] theorem withCmds_acqs (l n p) : (s.withCmds l n p).acqs = s.acqs := rfl
@[simp] theorem withCmds_log (l n p) : (s.withCmds l n p).log = s.log := rfl
@[simp] theorem withCmds_cal (l n p) : (s.withCmds l n p).cal = s.cal := rfl
@[simp] theorem withCmds_calLanes (l n p) : (s.withCmds l n p).calLanes = s.calLanes := rfl
@[simp] theorem withCmds_ez (l n p) : (s.withCmds l n p).ez = s.ez := rfl
@[simp] theorem withCmds_ports (l n p) : (s.withCmds l n p).ports = s.ports := rfl
@[simp] theorem withCmds_ea (l n p) : (s.withCmds l n p).ea = s.ea := rfl
@[simp] theorem withCmds_ump (l n p) : (s.withCmds l n p).ump = s.ump := rfl
@[simp] theorem withCmds_umpSrcs (l n p) : (s.withCmds l n p).umpSrcs = s.umpSrcs := rfl
@[simp] theorem withCmds_bh (l n p) : (s.withCmds l n p).bh = s.bh := rfl
@[simp] theorem withCmds_power (l n p) : (s.withCmds l n p).power = s.power := rfl
@[simp] theorem withCmds_rs (l n p) : (s.withCmds l n p).rs = s.rs := rfl
@[simp] theorem withCmds_sns (l n p) : (s.withCmds l n p).sns = s.sns := rfl
@[simp] theorem withCmds_host_ctxs (l n p) : (s.withCmds l n p).host.ctxs = s.host.ctxs := rfl
@[simp] theorem withCmds_host_qps (l n p) : (s.withCmds l n p).host.qps = s.host.qps := rfl
@[simp] theorem withCmds_host_lastSq (l n p) : (s.withCmds l n p).host.lastSq = s.host.lastSq := rfl
@[simp] theorem withCmds_host_claims (l n p) : (s.withCmds l n p).host.claims = s.host.claims := rfl
@[simp] theorem withCmds_host_locks (l n p) : (s.withCmds l n p).host.locks = s.host.locks := rfl
@[simp] theorem withCmds_host_apSel (l n p) : (s.withCmds l n p).host.apSel = s.host.apSel := rfl
@[simp] theorem withCmds_host_ap (l n p) : (s.withCmds l n p).host.ap = s.host.ap := rfl
@[simp] theorem withCmds_host_msix (l n p) : (s.withCmds l n p).host.msix = s.host.msix := rfl
@[simp] theorem withCmds_host_msixPend (l n p) : (s.withCmds l n p).host.msixPend = s.host.msixPend := rfl
@[simp] theorem withCmds_host_sharedFree (l n p) : (s.withCmds l n p).host.sharedFree = s.host.sharedFree := rfl
@[simp] theorem withCmds_host_pci (l n p) : (s.withCmds l n p).host.pci = s.host.pci := rfl
@[simp] theorem withCmds_lane (l n p j) : (s.withCmds l n p).lane j = s.lane j := rfl
@[simp] theorem withCmds_chan (l n p j) : (s.withCmds l n p).chan j = s.chan j := rfl
@[simp] theorem withCmds_tset (l n p j) : (s.withCmds l n p).tset j = s.tset j := rfl
@[simp] theorem withCmds_act (l n p j) : (s.withCmds l n p).act j = s.act j := rfl
@[simp] theorem withCmds_tap (l n p j) : (s.withCmds l n p).tap j = s.tap j := rfl
@[simp] theorem withCmds_eng (l n p j) : (s.withCmds l n p).eng j = s.eng j := rfl
@[simp] theorem withCmds_region (l n p j) : (s.withCmds l n p).region j = s.region j := rfl
@[simp] theorem withCmds_obj (l n p j) : (s.withCmds l n p).obj j = s.obj j := rfl
@[simp] theorem withCmds_tim (l n p j) : (s.withCmds l n p).tim j = s.tim j := rfl
@[simp] theorem withCmds_group (l n p j) : (s.withCmds l n p).group j = s.group j := rfl
@[simp] theorem withCmds_acq (l n p j) : (s.withCmds l n p).acq j = s.acq j := rfl
@[simp] theorem withCmds_calLane (l n p j) : (s.withCmds l n p).calLane j = s.calLane j := rfl
@[simp] theorem withCmds_port (l n p j) : (s.withCmds l n p).port j = s.port j := rfl
@[simp] theorem withCmds_src (l n p j) : (s.withCmds l n p).src j = s.src j := rfl
@[simp] theorem withCmds_sn (l n p j) : (s.withCmds l n p).sn j = s.sn j := rfl
@[simp] theorem withCmds_ctx (l n p j) : (s.withCmds l n p).ctx j = s.ctx j := rfl
@[simp] theorem withCmds_qp (l n p j) : (s.withCmds l n p).qp j = s.qp j := rfl
@[simp] theorem withCmds_lock (l n p j) : (s.withCmds l n p).lock j = s.lock j := rfl
@[simp] theorem withCmds_claim (l n p j) : (s.withCmds l n p).claim j = s.claim j := rfl
@[simp] theorem withCmds_geom (l n p j) : (s.withCmds l n p).geom j = s.geom j := rfl
@[simp] theorem withCmds_nv (l n p j) : (s.withCmds l n p).nv j = s.nv j := rfl

end Sys2Proof.Machine.State
end

