-- ==== Sys2Proof/Laws/Queue.lean ====
section
/-! SUPPORT. The life of a queue command: what its record's start and decision leave, and the reduction of a served command row
to its own effect. -/

namespace Sys2Proof.Machine

variable (s : State)

/-- An open record of the command is in flight. -/
def Begun (l : List Cmd) (h : Hdr) : Prop := ∃ c ∈ l, c.names h.sq h.cid = true ∧ c.open = true

/-! Reserving entries (R284) writes nothing but the `csn` of records in flight. -/

/-- The records of a list with some `csn` each. -/
def SameButCsn (l m : List Cmd) : Prop := List.Forall₂ (fun c d => ∃ k, d = { c with csn := k }) l m

theorem SameButCsn.refl (l : List Cmd) : SameButCsn l l := by
  induction l with
  | nil => exact .nil
  | cons c r ih => exact .cons ⟨c.csn, rfl⟩ ih

theorem reserveIn_spec (next : QueueId → Word32) (pre l : List Cmd) :
    ∃ m, reserveIn next pre l = pre ++ m ∧ SameButCsn l m := by
  induction l generalizing pre with
  | nil => exact ⟨[], by simp [reserveIn], .nil⟩
  | cons c r ih =>
    unfold reserveIn
    split
    all_goals
      obtain ⟨m, h1, h2⟩ := ih (pre ++ [_])
      exact ⟨_ :: m, by rw [h1, List.append_assoc]; rfl, .cons ⟨_, rfl⟩ h2⟩

theorem State.reserve_spec : SameButCsn s.host.inflight s.reserve.host.inflight := by
  unfold State.reserve
  split
  · obtain ⟨m, h1, h2⟩ := reserveIn_spec (fun q => (s.qp q.val).csn) [] s.host.inflight
    simpa [h1] using h2
  · exact SameButCsn.refl _

/-- Reserving changes nothing but the commands in flight. -/
theorem State.reserve_eq : s.reserve = s.withCmds s.reserve.host.inflight s.host.fetchSeq s.host.peak := by
  unfold State.reserve
  split <;> rfl

theorem SameButCsn.mem {l m : List Cmd} (h : SameButCsn l m) {c : Cmd} (hc : c ∈ l) : ∃ k, { c with csn := k } ∈ m := by
  induction h with
  | nil => simp at hc
  | cons h1 _ ih =>
    obtain ⟨k, rfl⟩ := h1
    rcases List.mem_cons.1 hc with rfl | hc
    · exact ⟨k, by simp⟩
    · obtain ⟨j, hj⟩ := ih hc
      exact ⟨j, by simp [hj]⟩

theorem SameButCsn.find {l m : List Cmd} (h : SameButCsn l m) (sq : QueueId) (cid : BitVec 16) :
    (m.find? fun c => c.names sq cid && c.open).map (·.entry) = (l.find? fun c => c.names sq cid && c.open).map (·.entry) := by
  induction h with
  | nil => rfl
  | @cons c d l m h1 _ ih =>
    obtain ⟨k, rfl⟩ := h1
    by_cases hp : (c.names sq cid && c.open) = true
    · have hq : (({ c with csn := k } : Cmd).names sq cid && ({ c with csn := k } : Cmd).open) = true := hp
      simp only [List.find?_cons, hp, hq, Option.map_some]
    · have hp : (c.names sq cid && c.open) = false := by simpa using hp
      have hq : (({ c with csn := k } : Cmd).names sq cid && ({ c with csn := k } : Cmd).open) = false := hp
      simpa only [List.find?_cons, hp, hq] using ih

theorem State.updCmd_eq (sq cid f) : s.updCmd sq cid f =
    s.withCmds (s.updCmd sq cid f).host.inflight s.host.fetchSeq s.host.peak := by
  unfold State.updCmd
  rw [State.reserve_eq]
  rfl

theorem State.mapCmds_eq (f) : s.mapCmds f = s.withCmds (s.mapCmds f).host.inflight s.host.fetchSeq s.host.peak := by
  unfold State.mapCmds
  rw [State.reserve_eq]
  rfl

theorem State.finish_eq (sq cid st d r0 r1) : s.finish sq cid st d r0 r1 = s.updCmd sq cid fun c => c.decide st d r0 r1 := rfl

theorem State.done_eq (h : Hdr) (st d r0 r1) : s.done h st d r0 r1 = s.finish h.sq h.cid st d r0 r1 := rfl

/-- The list of commands in flight once the command of the header has begun. -/
def State.begunCmds (h : Hdr) (opc : Byte) : List Cmd := (s.begin h opc).host.inflight

/-- Beginning a command changes nothing but the commands in flight. -/
theorem State.begin_eq (h : Hdr) (opc : Byte) : s.begin h opc =
    s.withCmds (s.begunCmds h opc) (s.begin h opc).host.fetchSeq (s.begin h opc).host.peak := by
  unfold State.begunCmds State.begin
  cases s.cmd? h.sq h.cid with
  | some c => rfl
  | none =>
    simp only [State.addCmd, State.addCmdAs]
    rw [State.reserve_eq]
    rfl

theorem begun_cmd? {h : Hdr} {c : Cmd} (hc : s.cmd? h.sq h.cid = some c) : Begun s.host.inflight h := by
  have h1 := List.mem_of_find?_eq_some hc
  have h2 := List.find?_some hc
  simp only [Bool.and_eq_true] at h2
  exact ⟨c, h1, h2⟩

/-- The record that a command gets when it begins. -/
def State.newCmd (h : Hdr) (opc : Byte) : Cmd :=
  { Cmd.fresh h.sq h.cid opc h.target s.host.fetchSeq .started with source := s.ez.id, entry := s.entryRec (ctxOfQueue h.sq) }

/-- A new record joins the commands in flight. -/
theorem State.begin_none {h : Hdr} (opc : Byte) (hn : s.cmd? h.sq h.cid = none) :
    SameButCsn (s.host.inflight ++ [s.newCmd h opc]) (s.begin h opc).host.inflight := by
  unfold State.begin
  rw [hn]
  exact State.reserve_spec (State.notePeak { s with host := { s.host with
    inflight := s.host.inflight ++ [s.newCmd h opc]
    fetchSeq := s.host.fetchSeq + 1 } })

/-- Whether the command was in flight or not, an open record of it is there once it has begun. -/
theorem State.begun_begin (h : Hdr) (opc : Byte) : Begun (s.begunCmds h opc) h := by
  unfold State.begunCmds
  cases hc : s.cmd? h.sq h.cid with
  | some c => simpa [State.begin, hc] using begun_cmd? s hc
  | none =>
    obtain ⟨k, hk⟩ := (s.begin_none opc hc).mem (c := s.newCmd h opc) (by simp)
    exact ⟨_, hk, by simp [Cmd.names, Cmd.fresh, State.newCmd], by simp [Cmd.open, Cmd.fresh, State.newCmd]⟩

theorem exists_updFirst {p : Cmd → Bool} {f : Cmd → Cmd} {l : List Cmd} (h : ∃ c ∈ l, p c = true) :
    ∃ c, c ∈ l ∧ p c = true ∧ f c ∈ updFirst p f l := by
  induction l with
  | nil => simp at h
  | cons a r ih =>
    by_cases ha : p a = true
    · exact ⟨a, by simp, ha, by simp [updFirst, ha]⟩
    · obtain ⟨c, hc, hp⟩ := h
      have hr : ∃ c ∈ r, p c = true := by
        rcases List.mem_cons.1 hc with rfl | hc
        · exact absurd hp ha
        · exact ⟨c, hc, hp⟩
      obtain ⟨c, h1, h2, h3⟩ := ih hr
      exact ⟨c, by simp [h1], h2, by simp [updFirst, ha, h3]⟩

/-- A decision on a command that has an open record is in flight afterwards, with its status and results. -/
theorem finish_record {h : Hdr} (hb : Begun s.host.inflight h) (st d r0 r1) :
    ∃ c ∈ (s.finish h.sq h.cid st d r0 r1).host.inflight, c.names h.sq h.cid = true ∧ c.stage = .committed ∧
      c.status = st ∧ c.detail = d ∧ c.r0 = r0 ∧ c.r1 = r1 := by
  obtain ⟨c, hc, hn, ho⟩ := hb
  obtain ⟨e, h1, h2, h3⟩ := exists_updFirst (p := fun c => c.names h.sq h.cid && c.open)
    (f := fun c => c.decide st d r0 r1) ⟨c, hc, by simp [hn, ho]⟩
  simp only [Bool.and_eq_true] at h2
  let t : State := { s with host := { s.host with
    inflight := updFirst (fun c => c.names h.sq h.cid && c.open) (fun c => c.decide st d r0 r1) s.host.inflight } }
  obtain ⟨k, hk⟩ := t.reserve_spec.mem h3
  exact ⟨_, hk, h2.1, rfl, rfl, rfl, rfl, rfl⟩

theorem decided_finish {h : Hdr} (hb : Begun s.host.inflight h) (st d r0 r1) :
    Decided (s.finish h.sq h.cid st d r0 r1) h st := by
  obtain ⟨c, hc, h1, h2, h3, -⟩ := finish_record s hb st d r0 r1
  exact ⟨c, hc, h1, h2, h3⟩

theorem decided_done {h : Hdr} (hb : Begun s.host.inflight h) (st d r0 r1) : Decided (s.done h st d r0 r1) h st :=
  decided_finish s hb st d r0 r1

/-- The entry-list record that judges a command is the same before and after it has begun. -/
theorem State.recOf_begin (h : Hdr) (opc : Byte) : (s.begin h opc).recOf h = s.recOf h := by
  cases hc : s.cmd? h.sq h.cid with
  | some c => simp [State.begin, hc]
  | none =>
    have hn : s.host.inflight.find? (fun c => c.names h.sq h.cid && c.open) = none := hc
    have hf := (s.begin_none opc hc).find h.sq h.cid
    rw [List.find?_append, hn] at hf
    have hp : ((s.newCmd h opc).names h.sq h.cid && (s.newCmd h opc).open) = true := by
      simp [Cmd.names, Cmd.fresh, Cmd.open, State.newCmd]
    simp only [Option.none_or, List.find?_cons, hp, Option.map_some] at hf
    unfold State.recOf State.recAt State.cmd?
    rw [hn]
    cases hx : (s.begin h opc).host.inflight.find? (fun c => c.names h.sq h.cid && c.open) with
    | none => rw [hx] at hf; cases hf
    | some c => rw [hx] at hf; exact Option.some.inj hf

/-- A command whose records in flight are started, and were fetched as this command, may act. -/
theorem State.runnable_of {h : Hdr} {opc : Byte} {ops : List (Nat × Nat)}
    (hs : ∀ c ∈ s.host.inflight, c.names h.sq h.cid = true → c.stage = .started ∧ c.behind = false ∧
      (c.raw.all fun e => entrySpells e h opc ops) = true) : s.runnable h opc ops = true := by
  unfold State.runnable
  cases hc : s.cmd? h.sq h.cid with
  | some c =>
    have h1 := List.mem_of_find?_eq_some hc
    have h2 := List.find?_some hc
    simp only [Bool.and_eq_true] at h2
    obtain ⟨h3, h5, h4⟩ := hs c h1 h2.1
    cases hr : c.raw with
    | none => simp [h3, h5, hr]
    | some e => simpa [h3, h5, hr] using h4
  | none =>
    have hn := List.find?_eq_none.1 hc
    simp only [Bool.not_eq_true', List.any_eq_false]
    intro c hm hcn
    have h1 := (hs c hm hcn).1
    have h2 := hn c hm
    simp [hcn, Cmd.open, h1] at h2

/-- A served command row is its own effect on the state in which its record is in flight. -/
theorem queueCmd_serves {i : Instr} {h : Hdr} {permit : EntryRec → Bool} {opc : Byte} {ops : List (Nat × Nat)}
    (hs : Serves s i h permit) (hi : spelled i = some (opc, ops)) (here : Bool) (body : State → State) :
    queueCmd s h opc ops true permit here body = body (s.begin h opc) := by
  obtain ⟨h1, h2, h3, h4, h5, h6, h7⟩ := hs
  simp only [hi, Option.any_some] at h2 h3
  unfold Powered at h1
  have he : (s.begin h opc).ez = s.ez := by rw [State.begin_eq]; rfl
  rw [h5] at h4 h6
  simp only [queueCmd, h1, if_false, s.runnable_of h2, State.recOf_begin, he, h3, h5, h4, h6, h7]
  simp

end Sys2Proof.Machine
end

