-- ==== Sys2Proof/Laws/Frame.lean ====
section
/-! SUPPORT. Frames of the shared operations: which parts of the state each can change. A frame of an operation built from
others follows from theirs by `trans`, `mono`, `ite`, `foldl` and `option`. -/

namespace Sys2Proof.Machine

variable {s t u : State} {l m : Parts}

theorem KeepsAllBut.refl (l : Parts) (s : State) : KeepsAllBut l s s := by
  intro p _
  cases p <;> simp [Part.same]

theorem Part.same.trans {p : Part} (h1 : p.same s t) (h2 : p.same t u) : p.same s u := by
  cases p <;> simp_all [Part.same]

theorem KeepsAllBut.trans (h1 : KeepsAllBut l s t) (h2 : KeepsAllBut l t u) : KeepsAllBut l s u :=
  fun p hp => (h1 p hp).trans (h2 p hp)

theorem KeepsAllBut.mono (h : KeepsAllBut l s t) (hl : ∀ p ∈ l, p ∈ m) : KeepsAllBut m s t :=
  fun p hp => h p fun hm => hp (hl p hm)

theorem KeepsAllBut.ite {c : Prop} [Decidable c] (h1 : c → KeepsAllBut l s t) (h2 : ¬ c → KeepsAllBut l s u) :
    KeepsAllBut l s (if c then t else u) := by
  split
  · exact h1 ‹_›
  · exact h2 ‹_›

theorem KeepsAllBut.foldl {α : Type} (f : State → α → State) (h : ∀ s a, KeepsAllBut l s (f s a)) (as : List α) (s : State) :
    KeepsAllBut l s (as.foldl f s) := by
  induction as generalizing s with
  | nil => exact KeepsAllBut.refl l s
  | cons a r ih => exact (h s a).trans (ih _)

theorem KeepsAllBut.option {α : Type} {o : Option α} {f : α → State} (h1 : o = none → KeepsAllBut l s t)
    (h2 : ∀ a, o = some a → KeepsAllBut l s (f a)) : KeepsAllBut l s (o.elim t f) := by
  cases o with
  | none => exact h1 rfl
  | some a => exact h2 a rfl

/-! The named writes of the tables. -/

theorem keeps_setLane (s : State) (k v) : KeepsAllBut [.lanes] s (s.setLane k v) := by
  intro p hp
  cases p <;> simp_all [Part.same, State.setLane]

theorem keeps_setChan (s : State) (k v) : KeepsAllBut [.chans] s (s.setChan k v) := by
  intro p hp
  cases p <;> simp_all [Part.same, State.setChan]

theorem keeps_setTset (s : State) (k v) : KeepsAllBut [.tsets] s (s.setTset k v) := by
  intro p hp
  cases p <;> simp_all [Part.same, State.setTset]

theorem keeps_setAct (s : State) (k v) : KeepsAllBut [.acts] s (s.setAct k v) := by
  intro p hp
  cases p <;> simp_all [Part.same, State.setAct]

theorem keeps_setTap (s : State) (k v) : KeepsAllBut [.taps] s (s.setTap k v) := by
  intro p hp
  cases p <;> simp_all [Part.same, State.setTap]

theorem keeps_setEng (s : State) (k v) : KeepsAllBut [.engines] s (s.setEng k v) := by
  intro p hp
  cases p <;> simp_all [Part.same, State.setEng]

theorem keeps_setRegion (s : State) (k v) : KeepsAllBut [.regions] s (s.setRegion k v) := by
  intro p hp
  cases p <;> simp_all [Part.same, State.setRegion]

theorem keeps_setObj (s : State) (k v) : KeepsAllBut [.objs] s (s.setObj k v) := by
  intro p hp
  cases p <;> simp_all [Part.same, State.setObj]

theorem keeps_setTim (s : State) (k v) : KeepsAllBut [.tims] s (s.setTim k v) := by
  intro p hp
  cases p <;> simp_all [Part.same, State.setTim]

theorem keeps_setGroup (s : State) (k v) : KeepsAllBut [.groups] s (s.setGroup k v) := by
  intro p hp
  cases p <;> simp_all [Part.same, State.setGroup]

theorem keeps_setAcq (s : State) (k v) : KeepsAllBut [.acqs] s (s.setAcq k v) := by
  intro p hp
  cases p <;> simp_all [Part.same, State.setAcq]

theorem keeps_setCalLane (s : State) (k v) : KeepsAllBut [.calLanes] s (s.setCalLane k v) := by
  intro p hp
  cases p <;> simp_all [Part.same, State.setCalLane]

theorem keeps_setPort (s : State) (k v) : KeepsAllBut [.ports] s (s.setPort k v) := by
  intro p hp
  cases p <;> simp_all [Part.same, State.setPort]

theorem keeps_setSrc (s : State) (k v) : KeepsAllBut [.umpSrcs] s (s.setSrc k v) := by
  intro p hp
  cases p <;> simp_all [Part.same, State.setSrc]

theorem keeps_setSn (s : State) (k v) : KeepsAllBut [.sns] s (s.setSn k v) := by
  intro p hp
  cases p <;> simp_all [Part.same, State.setSn]

theorem keeps_setCtx (s : State) (k v) : KeepsAllBut [.contexts] s (s.setCtx k v) := by
  intro p hp
  cases p <;> simp_all [Part.same, State.setCtx]

theorem keeps_setQp (s : State) (k v) : KeepsAllBut [.queuePairs] s (s.setQp k v) := by
  intro p hp
  cases p <;> simp_all [Part.same, State.setQp]

theorem keeps_setLock (s : State) (k v) : KeepsAllBut [.locks] s (s.setLock k v) := by
  intro p hp
  cases p <;> simp_all [Part.same, State.setLock]

theorem keeps_setClaim (s : State) (k v) : KeepsAllBut [.claims] s (s.setClaim k v) := by
  intro p hp
  cases p <;> simp_all [Part.same, State.setClaim]

theorem keeps_setGeom (s : State) (k v) : KeepsAllBut [.geoms] s (s.setGeom k v) := by
  intro p hp
  cases p <;> simp_all [Part.same, State.setGeom]

theorem keeps_setNv (s : State) (k v) : KeepsAllBut [.drives] s (s.setNv k v) := by
  intro p hp
  cases p <;> simp_all [Part.same, State.setNv]

/-! Outputs, the commands in flight, and guards. -/

theorem keeps_send (s : State) (o) : KeepsAllBut [.out] s (s.send o) := by
  intro p hp
  cases p <;> simp_all [Part.same, State.send]

theorem keeps_withCmds (s : State) (l n p) : KeepsAllBut [.hostCmds] s (s.withCmds l n p) := by
  intro p hp
  cases p <;> simp_all [Part.same, State.withCmds]

theorem keeps_updCmd (s : State) (sq cid f) : KeepsAllBut [.hostCmds] s (s.updCmd sq cid f) := by
  rw [State.updCmd_eq]
  exact keeps_withCmds s _ _ _

theorem keeps_mapCmds (s : State) (f) : KeepsAllBut [.hostCmds] s (s.mapCmds f) := by
  rw [State.mapCmds_eq]
  exact keeps_withCmds s _ _ _

theorem keeps_finish (s : State) (sq cid st d r0 r1) : KeepsAllBut [.hostCmds] s (s.finish sq cid st d r0 r1) :=
  keeps_updCmd s _ _ _

theorem keeps_done (s : State) (h : Hdr) (st d r0 r1) : KeepsAllBut [.hostCmds] s (s.done h st d r0 r1) :=
  keeps_finish s _ _ _ _ _ _

theorem keeps_finishAll (s : State) (p st d r0) : KeepsAllBut [.hostCmds] s (s.finishAll p st d r0) := keeps_mapCmds s _

theorem keeps_begin (s : State) (h : Hdr) (opc) : KeepsAllBut [.hostCmds] s (s.begin h opc) := by
  rw [State.begin_eq]
  exact keeps_withCmds s _ _ _

/-! Flits (R240, R241). -/

theorem keeps_pumpPort (s : State) (p r) : KeepsAllBut [.out, .ports] s (s.pumpPort p r) := by
  intro q hq
  cases q <;> simp_all [Part.same, State.pumpPort]

theorem keeps_post (s : State) (p l) : KeepsAllBut [.out, .ports] s (s.post p l) :=
  .ite (fun _ => keeps_pumpPort s p _) fun _ => .refl _ _

theorem keeps_forward (s : State) (dest l) : KeepsAllBut [.out, .ports] s (s.forward dest l) := by
  unfold State.forward
  split
  · exact keeps_post _ _ _
  · exact .refl _ _

theorem keeps_sendTo (s : State) (i m) : KeepsAllBut [.out, .ports] s (s.sendTo i m) :=
  .ite (fun _ => .refl _ _) fun _ => keeps_forward s _ _

theorem keeps_sendAll (s : State) (is m) : KeepsAllBut [.out, .ports] s (s.sendAll is m) :=
  .foldl _ (fun s i => keeps_sendTo s i m) is s

/-- A command that leaves for its member changes its record, the output and a port (R248). -/
theorem keeps_forwardCmd (s : State) (sq cid target e) : KeepsAllBut cmdParts s (s.forwardCmd sq cid target e) :=
  ((keeps_updCmd s sq cid _).mono (by simp [cmdParts])).trans ((keeps_sendTo _ _ _).mono (by simp [cmdParts]))

/-- The same of the HEAT_STARTs that follow it (R278). -/
theorem keeps_releaseHeats (s : State) : KeepsAllBut cmdParts s s.releaseHeats := by
  refine .foldl _ (fun s c => ?_) _ s
  split
  · exact .ite (fun _ => keeps_forwardCmd _ _ _ _ _) fun _ => .refl _ _
  · exact .refl _ _

/-- A queue command changes what its own effect changes, its record and, where it is sent on, the output and a port. -/
theorem keeps_queueCmd (s : State) (h : Hdr) (opc ops wf permit here) (body : State → State)
    (hb : ∀ s, KeepsAllBut l s (body s)) (hl : ∀ p ∈ cmdParts, p ∈ l) :
    KeepsAllBut l s (queueCmd s h opc ops wf permit here body) := by
  have hc : ∀ p ∈ [Part.hostCmds], p ∈ l := fun p hp => hl p (by simp_all [cmdParts])
  unfold queueCmd
  refine .ite (fun _ => .refl _ _) fun _ => .ite (fun _ => .refl _ _) fun _ => ?_
  refine ((keeps_begin s h opc).mono hc).trans ?_
  refine .ite (fun _ => (keeps_finish _ _ _ _ _ _ _).mono hc) fun _ => ?_
  refine .ite (fun _ => (keeps_finish _ _ _ _ _ _ _).mono hc) fun _ => ?_
  refine .ite (fun _ => (keeps_finish _ _ _ _ _ _ _).mono hc) fun _ => ?_
  refine .ite (fun _ => ?_) fun _ => hb _
  exact .ite (fun _ => (keeps_updCmd _ _ _ _).mono hc) fun _ =>
    ((keeps_forwardCmd _ _ _ _ _).mono hl).trans ((keeps_releaseHeats _).mono hl)

theorem keeps_inRun (s : State) {f : State → State} (h : KeepsAllBut l s (f s)) : KeepsAllBut l s (inRun s f) :=
  .ite (fun _ => .refl _ _) fun _ => h

theorem keeps_whenReady (s : State) {f : State → State} (h : KeepsAllBut l s (f s)) : KeepsAllBut l s (whenReady s f) :=
  .ite (fun _ => .refl _ _) fun _ => .ite (fun _ => h) fun _ => .refl _ _

theorem keeps_sends (s : State) (os) : KeepsAllBut [.out] s (s.sends os) := .foldl _ keeps_send os s

/-! Interrupts, Log packets and the Umpire. -/

theorem keeps_sendVector (s : State) (v) : KeepsAllBut [.out, .msixPend] s (s.sendVector v) := by
  unfold State.sendVector
  refine .ite (fun _ => .refl _ _) fun _ => .ite (fun _ => ?_) fun _ => (keeps_send _ _).mono (by simp)
  intro p hp
  cases p <;> simp_all [Part.same]

theorem keeps_logSend (s : State) (kind unit words) : KeepsAllBut [.logFinished] s (s.logSend kind unit words) := by
  unfold State.logSend
  refine .ite (fun _ => ?_) fun _ => .refl _ _
  intro p hp
  cases p <;> simp_all [Part.same]

/-- The configuration of the Umpire is the same in both (R311). -/
def UmpSt.sameCfg (u v : UmpSt) : Prop :=
  v.ignored = u.ignored ∧ v.refused = u.refused ∧ v.irq = u.irq ∧ v.forceDetail = u.forceDetail ∧
  v.wireInj = u.wireInj ∧ v.injTo = u.injTo ∧ v.halt = u.halt

theorem UmpSt.rebuild_cfg (u : UmpSt) (l) : u.sameCfg (u.rebuild l) := by
  suffices h : ∀ (l : List UmpEntry) (v : UmpSt), u.sameCfg v → u.sameCfg (l.foldl UmpSt.write v) from
    h l _ (by simp [UmpSt.sameCfg])
  intro l
  induction l with
  | nil => exact fun v h => h
  | cons x r ih => exact fun v h => ih _ (by simpa [UmpSt.sameCfg, UmpSt.write] using h)

theorem UmpSt.inCycle_cfg (u : UmpSt) (c) : u.sameCfg (u.inCycle c) := by
  unfold UmpSt.inCycle
  split <;> simp [UmpSt.sameCfg]

theorem keeps_umpHist (s : State) (n k d) : KeepsAllBut [.umpHist] s (s.umpHist n k d) := by
  have h1 := s.ump.inCycle_cfg s.ckC
  have h2 := (s.ump.inCycle s.ckC).rebuild_cfg (insEntry ⟨n, k, d, s.rtEdge⟩ (s.ump.inCycle s.ckC).fresh)
  intro p hp
  cases p <;> simp_all [Part.same, State.umpHist, UmpSt.sameCfg]

theorem keeps_updSrc (s : State) (n f) : KeepsAllBut [.umpSrcs] s (s.updSrc n f) := keeps_setSrc s n _

theorem keeps_umpSevere (s : State) (n) : KeepsAllBut umpParts s (s.umpSevere n) := by
  unfold State.umpSevere
  dsimp only
  have hu : KeepsAllBut umpParts s ((s.updSrc n fun r => { r with st := .severe, sevAt := s.now }).umpHist n 2 0) :=
    ((keeps_updSrc s n _).mono (by simp [umpParts])).trans ((keeps_umpHist _ _ _ _).mono (by simp [umpParts]))
  refine .ite (fun _ => hu.trans ?_) fun _ => hu
  intro p hp
  cases p <;> simp_all [Part.same, umpParts]

theorem keeps_umpTake (s : State) (n d) : KeepsAllBut umpParts s (s.umpTake n d) := by
  unfold State.umpTake
  extract_lets u v w
  have hv : KeepsAllBut umpParts s v :=
    ((keeps_updSrc s n _).mono (by simp [umpParts])).trans ((keeps_umpHist _ _ _ _).mono (by simp [umpParts]))
  have hw : KeepsAllBut umpParts s w :=
    .ite (fun _ => hv.trans ((keeps_logSend _ _ _ _).mono (by simp [umpParts]))) fun _ => hv
  exact .ite (fun _ => .refl _ _) fun _ => .ite (fun _ => hw.trans (keeps_umpSevere _ _)) fun _ => hw

/-- An event sent to the Umpire (R298 to R302, R307, R308). -/
theorem keeps_umpEvent (s : State) (n d) : KeepsAllBut umpParts s (s.umpEvent n d) :=
  .ite (fun _ => .refl _ _) fun _ => keeps_umpTake s n d

/-! Event flits and trigger groups. -/

theorem keeps_putEvt (s : State) (p typ v) : KeepsAllBut [.out, .ports] s (s.putEvt p typ v) := by
  intro q hq
  cases q <;> simp_all [Part.same, State.putEvt]

theorem keeps_sendEvt (s : State) (p typ tick pl) : KeepsAllBut [.out, .ports] s (s.sendEvt p typ tick pl) :=
  keeps_putEvt s _ _ _

theorem keeps_sendEvts (s : State) (ps typ tick pl) : KeepsAllBut [.out, .ports] s (s.sendEvts ps typ tick pl) :=
  .foldl _ (fun s p => keeps_sendEvt s p typ tick pl) ps s

theorem keeps_sendOrdered (s : State) (typ tick pl) {f : State → State} (hf : ∀ s, KeepsAllBut l s (f s))
    (ho : ∀ p ∈ [Part.out, Part.ports], p ∈ l) : KeepsAllBut l s (s.sendOrdered typ tick pl f) := by
  unfold State.sendOrdered
  exact .ite (fun _ => ((keeps_sendEvts _ _ _ _ _).mono ho).trans (hf _)) fun _ => (keeps_sendEvts _ _ _ _ _).mono ho

theorem keeps_flood (s : State) (fr typ tick pl) : KeepsAllBut [.out, .ports] s (s.flood fr typ tick pl) :=
  keeps_sendEvts s _ _ _ _

theorem keeps_addOrdered (s : State) (at_ ev) : KeepsAllBut [.ordered] s (s.addOrdered at_ ev) := by
  intro p hp
  cases p <;> simp_all [Part.same, State.addOrdered]

theorem keeps_recordFire (s : State) (g f) : KeepsAllBut [.groups] s (s.recordFire g f) := keeps_setGroup s _ _

theorem keeps_fireGroup (s : State) (g kind num tick fine) :
    KeepsAllBut [.out, .groups, .ports] s (s.fireGroup g kind num tick fine) := by
  unfold State.fireGroup
  refine .ite (fun _ => .refl _ _) fun _ => ?_
  exact keeps_sendOrdered _ _ _ _ (fun s => (keeps_recordFire s _ _).mono (by simp)) (by simp)

theorem keeps_fireWhere (s : State) (p kind num tick fine) :
    KeepsAllBut [.out, .groups, .ports] s (s.fireWhere p kind num tick fine) :=
  .foldl _ (fun s g => keeps_fireGroup s g kind num tick fine) _ s

theorem keeps_windowFire (s : State) (c fu st) : KeepsAllBut [.out, .groups, .ports] s (s.windowFire c fu st) :=
  keeps_fireWhere s _ _ _ _ _

/-- A channel that becomes another, with the window fires of its comparator (R193). -/
theorem keeps_moveChan (s : State) (c new) : KeepsAllBut [.out, .chans, .groups, .ports] s (s.moveChan c new) :=
  ((keeps_setChan s c _).mono (by simp)).trans
    (.foldl _ (fun s (e : Nat × Cmp) => (keeps_windowFire s c e.1 e.2).mono (by simp)) _ _)

/-- A comparator that judges again (R33, R193). -/
theorem keeps_judgeChan (s : State) (c fu) : KeepsAllBut [.out, .chans, .groups, .ports] s (s.judgeChan c fu) :=
  keeps_moveChan s c _

theorem keeps_updChan (s : State) (c f) : KeepsAllBut [.chans] s (s.updChan c f) := keeps_setChan s c _

/-- A channel that changes outside the formatter, whose transition its lane counts (R33, R75). -/
theorem keeps_changeChan (s : State) (c fu f) :
    KeepsAllBut [.out, .lanes, .chans, .groups, .ports] s (s.changeChan c fu f) :=
  .ite (fun _ => (keeps_moveChan s c _).mono (by simp)) fun _ =>
    ((keeps_moveChan s c _).mono (by simp)).trans ((keeps_setLane _ _ _).mono (by simp))

/-- A channel that takes its new active half (R41, R50). -/
theorem keeps_applyChan (s : State) (c f) :
    KeepsAllBut [.out, .lanes, .chans, .groups, .ports, .acqs] s (s.applyChan c f) := by
  unfold State.applyChan
  extract_lets a t
  have ht : KeepsAllBut [.out, .lanes, .chans, .groups, .ports, .acqs] s t :=
    .ite (fun _ => (keeps_setAcq s _ _).mono (by simp)) fun _ => .refl _ _
  exact ht.trans ((keeps_changeChan t c _ _).mono (by simp))

/-! Time. -/

theorem keeps_noteModes (s : State) : KeepsAllBut [.modeSeen] s s.noteModes := by
  intro p hp
  cases p <;> simp_all [Part.same, State.noteModes]

theorem keeps_idleTick (s : State) : KeepsAllBut [.now, .modeSeen] s (idleTick s) := by
  unfold idleTick
  refine KeepsAllBut.trans (t := _) ?_ ((keeps_noteModes _).mono (by simp))
  refine .ite (fun _ => ?_) fun _ => ?_
  all_goals
    intro p hp
    cases p <;> simp_all [Part.same]

theorem keeps_takeFree (s : State) : KeepsAllBut [.freeCount] s s.takeFree.2 := by
  intro p hp
  cases p <;> simp_all [Part.same, State.takeFree]

/-! The Umpire's pairs (R299). -/

theorem keeps_umpWire (s : State) (n) : KeepsAllBut umpParts s (s.umpWire n) := by
  unfold State.umpWire
  dsimp only
  have hu : KeepsAllBut umpParts s ((s.updSrc n fun r => { r with wire := true, bad := 3, pre := none }).umpHist n 1 0) :=
    ((keeps_updSrc s n _).mono (by simp [umpParts])).trans ((keeps_umpHist _ _ _ _).mono (by simp [umpParts]))
  exact .ite (fun _ => hu) fun _ => hu.trans (keeps_umpSevere _ _)

theorem keeps_samplePair (s : State) (n) : KeepsAllBut umpParts s (s.samplePair n) := by
  have h : KeepsAllBut umpParts s (s.setSrc n ((s.src n).sampled s.ckC)) := (keeps_setSrc s n _).mono (by simp [umpParts])
  unfold State.samplePair
  exact .ite (fun _ => h.trans (keeps_umpWire _ _)) fun _ => h

/-- The vectors of the cycle's entries to SEVERE (R302). -/
theorem keeps_sendSevere (s : State) : KeepsAllBut [.out, .msixPend, .umpHist] s s.sendSevere := by
  have h : KeepsAllBut [.umpHist] s { s with ump := { s.ump with sevIrq := [] } } := by
    intro p hp
    cases p <;> simp_all [Part.same]
  exact (h.mono (by simp)).trans (.foldl _ (fun s v => (keeps_sendVector s v).mono (by simp)) _ _)

/-- Sampling the pairs touches what an event touches, and sends the vectors of the cycle before (R299, R302). -/
theorem keeps_samplePairs (s : State) : KeepsAllBut (umpParts ++ [.out, .msixPend]) s s.samplePairs :=
  .ite (fun _ => keeps_inRun s (((keeps_sendSevere s).mono (by simp [umpParts])).trans
    (.foldl _ (fun s n => (keeps_samplePair s n).mono (by simp [umpParts])) _ _))) fun _ => .refl _ _

end Sys2Proof.Machine
end

