-- ==== Sys2Proof/Machine/Package.lean ====
section
/-! DEFINITION. The package: which signal or supply each ball carries (R12, R353 to R359), the signals' directions, classes
and states in Stop, the supplies, their limits and the ordering codes (R360 to R366, R370). Nothing of it changes. -/

namespace Sys2Proof.Machine

/-- What a ball carries: a supply, a channel, or a signal by its name. -/
inductive Ball where
  | vss | vddhFe | vnegFe | vddFe | vddSerdes | vddIo | vppHbm | vddqHbm | vddCore | vaon
  | channel (c : Nat)
  | signal (name : String)
deriving DecidableEq, Repr

/-- The letters of the rows (R354). -/
def rowLetters : List String :=
  ["A", "B", "C", "D", "E", "F", "G", "H", "J", "K", "L", "M", "N", "P", "T", "U", "V", "W", "Y"]

/-- The name of row index i, 1 to 72 (R354). -/
def rowName (i : Nat) : String :=
  (if i ≤ 19 then "" else if i ≤ 38 then "A" else if i ≤ 57 then "B" else "C") ++ rowLetters.getD ((i - 1) % 19) ""

/-- The name of a ball (R354). -/
def ballName (i col : Nat) : String := rowName i ++ toString col

/-- Pattern position (r, c) of the field of lane k (R356). -/
def laneBall (k r c : Nat) : Ball :=
  if c % 2 = 0 then
    if r = 2 then .channel (16 * k + (c - 2) / 2)
    else if r = 4 then .channel (16 * k + 8 + (c - 2) / 2)
    else if r = 12 then .vddFe
    else .vss
  else if r = 7 then .vddhFe
  else if r = 9 then .vnegFe
  else if r = 11 then .vddFe
  else .vss

/-- The signal of SerDes pair s; none where the pair is VSS (R358). -/
def pairName (s : Nat) : Option String :=
  if s < 16 then some ("PCIE_TX" ++ toString s)
  else if s < 32 then some ("PCIE_RX" ++ toString (s - 16))
  else if s < 112 then
    let x := (s - 32) % 16
    some ("E" ++ toString ((s - 32) / 16) ++ (if x < 8 then "_TX" else "_RX") ++ toString (x % 8))
  else if s < 144 then
    let x := (s - 112) % 8
    some ("NV" ++ toString ((s - 112) / 8) ++ (if x < 4 then "_TX" else "_RX") ++ toString (x % 4))
  else if s = 144 then some "PCIE_REFCLK"
  else if s = 145 then some "REFCLK"
  else if s < 150 then some ("NV" ++ toString (s - 146) ++ "_REFCLK")
  else none

/-- A ball of SerDes row n (R358). -/
def serdesBall (n col : Nat) : Ball :=
  if 66 < col || (col - 1) % 3 = 0 then .vss
  else match pairName (22 * n + (col - 1) / 3) with
    | some x => .signal (x ++ if (col - 1) % 3 = 1 then "_P" else "_N")
    | none => .vss

/-- The low-speed signals of row BB, column 1 on (R359). -/
def lowSpeed : List String :=
  ["PERST_N", "NV0_PERST_N", "NV1_PERST_N", "NV2_PERST_N", "NV3_PERST_N", "RESET_N", "EASYALL_N", "FAULT_N", "CATCH_IN",
    "CATCH_OUT", "TRIG_IN", "TRIG_OUT", "GATE0", "GATE1", "GATE2", "GATE3", "PWR_EN0", "PWR_EN1", "PWR_EN2", "PWR_EN3"] ++
  ["PG0", "PG1", "PG2", "PG3", "SMB_CLK", "SMB_DAT", "SMB_ALERT_N", "SPI_CLK", "SPI_CS_N", "SPI_IO0", "SPI_IO1", "SPI_IO2",
    "SPI_IO3", "TCK", "TMS", "TDI", "TDO", "TRST_N", "VREF_CAL", "VREF_CAL_RTN"] ++
  ["SNS0", "SNS1", "SNS2", "SNS3", "SNS4", "SNS5", "SNS6", "SNS7"]

/-- A ball of the core field, rows 25 (AF) to 48 (BK) (R357). -/
def coreBall (i col : Nat) : Ball :=
  let odd := col % 2 = 1
  match i - 25 with
  | 1 => serdesBall 0 col
  | 3 => serdesBall 1 col
  | 5 => serdesBall 2 col
  | 7 => serdesBall 3 col
  | 9 => serdesBall 4 col
  | 11 => serdesBall 5 col
  | 13 => serdesBall 6 col
  | 15 => if col ≤ 48 then .signal (lowSpeed.getD (col - 1) "") else if col ≤ 56 then .vaon else .vss
  | 16 => if odd then .vddSerdes else .vss
  | 17 => if odd then (if col ≤ 33 then .vddIo else if col ≤ 67 then .vppHbm else .vss) else .vss
  | 18 => if odd then .vddqHbm else .vss
  | 19 => if odd then .vss else .vddqHbm
  | 20 => if odd then .vddCore else .vss
  | 21 => if odd then .vss else .vddCore
  | 22 => if odd then .vddCore else .vss
  | _ => .vss

/-- The ball at row index i, 1 to 72, and column 1 to 68 (R355). -/
def ballAt (i col : Nat) : Ball :=
  let j := (col - 1) / 17
  let c := (col - 1) % 17 + 1
  if i ≤ 12 then laneBall j i c
  else if i ≤ 24 then laneBall (4 + j) (i - 12) c
  else if i ≤ 48 then coreBall i col
  else if i ≤ 60 then laneBall (8 + j) (61 - i) c
  else laneBall (12 + j) (73 - i) c

/-- Directions of R360. -/
inductive PinDir where
  | input | output | openDrain | both
deriving DecidableEq, Repr

/-- Signal classes (R360, R365). -/
inductive PinClass where
  | pcie | hcsl | cmos12 | erzal | lvds | od33 | aon33 | smb | analog
deriving DecidableEq, Repr

/-- What a signal does in Stop (R360). `squelch` and `highZIgnored` are high impedance too. -/
inductive StopState where
  | highZ | squelch | tone | ignored | highZIgnored | notUsed | driven | live
deriving DecidableEq, Repr

/-- Pull resistors (R360): in the device, of 50 kOhm where R360 gives the value, or asked of the board. -/
inductive Pull where
  | none | up50k | up | down | boardDown
deriving DecidableEq, Repr

/-- A row of R360: the names as the ball map spells their beginnings. -/
structure PinRow where
  start : String
  dir : PinDir
  cls : PinClass
  stop : StopState
  pull : Pull
deriving DecidableEq, Repr

/-- The non-channel signals (R360); a name belongs to the first row whose start it has. -/
def pinRows : List PinRow :=
  [⟨"PCIE_TX", .output, .pcie, .highZ, .none⟩, ⟨"PCIE_RX0", .input, .pcie, .squelch, .none⟩, ⟨"PCIE_RX", .input, .pcie, .highZ,
  .none⟩,
    ⟨"PCIE_REFCLK", .input, .hcsl, .notUsed, .none⟩, ⟨"PERST_N", .input, .cmos12, .ignored, .none⟩,
    ⟨"E0_RX0", .input, .erzal, .live, .none⟩, ⟨"E1_TX0", .output, .erzal, .tone, .none⟩, ⟨"E2_TX0", .output, .erzal, .tone,
    .none⟩,
    ⟨"E3_TX0", .output, .erzal, .tone, .none⟩, ⟨"E4_TX0", .output, .erzal, .tone, .none⟩] ++
  [⟨"EASYALL_N", .openDrain, .od33, .highZIgnored, .none⟩] ++
  (List.range 5).flatMap (fun p => [⟨"E" ++ toString p ++ "_TX", .output, .erzal, .highZ, .none⟩,
    ⟨"E" ++ toString p ++ "_RX", .input, .erzal, .highZ, .none⟩]) ++
  (List.range 4).flatMap (fun q => [⟨"NV" ++ toString q ++ "_TX", .output, .pcie, .highZ, .none⟩,
    ⟨"NV" ++ toString q ++ "_RX", .input, .pcie, .highZ, .none⟩, ⟨"NV" ++ toString q ++ "_REFCLK", .output, .hcsl, .highZ, .none⟩,
    ⟨"NV" ++ toString q ++ "_PERST_N", .output, .cmos12, .highZ, .boardDown⟩]) ++
  [⟨"REFCLK", .input, .lvds, .notUsed, .none⟩, ⟨"CATCH_IN", .input, .cmos12, .highZ, .none⟩, ⟨"CATCH_OUT", .output, .cmos12,
  .highZ, .none⟩,
    ⟨"GATE", .input, .cmos12, .ignored, .none⟩, ⟨"TRIG_IN", .input, .cmos12, .ignored, .none⟩, ⟨"TRIG_OUT", .output, .cmos12,
    .highZ, .none⟩,
    ⟨"RESET_N", .input, .cmos12, .ignored, .up50k⟩, ⟨"FAULT_N", .openDrain, .od33, .driven, .none⟩, ⟨"PWR_EN", .output, .aon33,
    .live, .none⟩,
    ⟨"PG", .input, .aon33, .live, .none⟩, ⟨"SMB_", .openDrain, .smb, .highZ, .none⟩, ⟨"SPI_", .both, .cmos12, .highZ, .none⟩,
    ⟨"TCK", .input, .cmos12, .highZ, .none⟩, ⟨"TMS", .input, .cmos12, .highZ, .up⟩, ⟨"TDI", .input, .cmos12, .highZ, .up⟩,
    ⟨"TDO", .output, .cmos12, .highZ, .none⟩, ⟨"TRST_N", .input, .cmos12, .highZ, .down⟩, ⟨"VREF_CAL", .input, .analog, .notUsed,
    .none⟩,
    ⟨"SNS", .input, .analog, .live, .none⟩]

/-- The row of a signal of the ball map (R360). -/
def pinRow (name : String) : Option PinRow := pinRows.find? fun r => r.start.isPrefixOf name

/-- A supply (R361): nominal voltage in mV, operating range in percent, power group, balls and maximum current in mA. -/
structure Supply where
  ball : Ball
  nominal : Int
  range : Nat
  group : Option Nat
  balls : Nat
  maxMa : Nat
deriving DecidableEq, Repr

/-- The supplies, in the order of R361. -/
def supplies : List Supply :=
  [⟨.vddCore, 750, 3, some 0, 102, 90000⟩, ⟨.vddFe, 900, 3, some 0, 272, 24000⟩, ⟨.vddSerdes, 850, 3, some 1, 34, 17000⟩,
    ⟨.vddIo, 1200, 3, some 1, 17, 1000⟩, ⟨.vppHbm, 1800, 3, some 2, 17, 4000⟩, ⟨.vddqHbm, 1100, 3, some 2, 68, 24000⟩,
    ⟨.vnegFe, -1000, 3, some 3, 144, 4000⟩, ⟨.vddhFe, 2800, 3, some 3, 144, 7000⟩, ⟨.vaon, 3300, 4, none, 8, 300⟩]

/-- A supply within its operating range, in uV (R361, R364). -/
def Supply.inRange (p : Supply) (uv : Int) : Bool := decide ((uv - 1000 * p.nominal).natAbs ≤ 10 * p.range * p.nominal.natAbs)

/-- The order in which the board must start supplies (R341, R362): VAON, then each group's first and second. -/
def supplyOrder : List Ball :=
  [.vaon, .vddCore, .vddFe, .vddSerdes, .vddIo, .vppHbm, .vddqHbm, .vnegFe, .vddhFe]

/-- Absolute maximum ratings in mV, least and greatest (R363). -/
def absMax : List (Ball × Int × Int) :=
  [(.vddCore, -300, 1050), (.vddFe, -300, 1050), (.vddSerdes, -300, 1050), (.vddIo, -300, 1500), (.vddqHbm, -300, 1500),
    (.vppHbm, -300, 2200), (.vddhFe, -300, 3300), (.vnegFe, -1300, 300), (.vaon, -300, 3800)]

/-- The levels of a class in mV (R365): VIH min, VIL max, and VOH min and VOL max where it drives. -/
structure PinLevels where
  vih : Nat
  vil : Nat
  voh : Option Nat
  vol : Nat
deriving DecidableEq, Repr

/-- The digital classes that R365 gives levels for. -/
def pinLevels : PinClass → Option PinLevels
  | .cmos12 => some ⟨840, 360, some 1000, 200⟩
  | .aon33 => some ⟨2000, 800, some 2900, 400⟩
  | .od33 => some ⟨2000, 800, none, 400⟩
  | .smb => some ⟨1350, 800, none, 400⟩
  | _ => none

/-- What an input of a class reads at a voltage in mV (R365); between the limits the spec gives no level. -/
def PinLevels.reads (l : PinLevels) (mv : Nat) : Option Bool :=
  if l.vih ≤ mv then some true else if mv ≤ l.vil then some false else none

/-- An ordering code (R370): its maximum rate in Mb/s and its typical and maximum dissipation in Run, in W (R366). -/
structure OrderCode where
  code : String
  variantM1 : Bool
  maxRate : Nat
  typW : Nat
  maxW : Nat
deriving DecidableEq, Repr

/-- The ordering codes (R370). -/
def orderCodes : List OrderCode :=
  [⟨"DL4256-A1-B0-LT", false, 12800, 112, 165⟩, ⟨"DL4256-M1-B0-LT", true, 6400, 104, 140⟩]

end Sys2Proof.Machine
end

