-- ==== Sys2Proof/WellFormed.lean ====
section
/-! DEFINITION. Well-formed commands: the operands that the type of a command leaves free and the spec does not. -/

namespace Sys2Proof

/-- A Boathouse message has at most 4,096 bytes (R318). -/
def bodyOk (body : List Byte) : Bool := body.length ≤ 4096

/-- The operands of a command agree with each other: a list is as long as its count says (R276, R277), a table entry lies in
its space, a message fits its port (R318), BAR2 has 64 GiB (R266), and an event that reports readings reports all of them. -/
def Instr.wf (i : Instr) : Bool :=
  match i with
  | .levelWrite _ _ f => f.vals.length = 13
  | .adcMeasurementDone _ samples _ _ => 1 ≤ samples.length && decide (samples.length ≤ 4098)
  | .tsetWrite _ _ _ _ n _ recs => n.toNat ≤ 256 && recs.length = n.toNat
  | .tableLoad _ _ _ first count data => data.length = count.toNat && decide (first.toNat + count.toNat ≤ 4096)
  | .tablePatch _ _ _ first count data => data.length = count.toNat && decide (first.toNat + count.toNat ≤ 4096)
  | .segmentWrite _ _ _ _ data => data.length % 512 = 0
  | .regionWrite _ _ _ length data => data.length = length.toNat
  | .failstoreMerge _ _ handles => handles.length = 8
  | .acqSample _ convs => 1 ≤ convs.length
  | .logRead dword count => decide (dword < 8) && decide (1 ≤ count)
  | .vernierMeasurementDone _ item h1 h2 => h1.length = (if item.val < 17 then 96 else 32) && decide (h2.length = h1.length)
  | .surveyRunEnd _ _ adcFits _ => adcFits.length = 16
  | .bar2Read offset length => offset + length ≤ 2 ^ 36
  | .bar2Write offset data => offset + data.length ≤ 2 ^ 36
  | .sensorRead temps volts currents => temps.length = 24 && decide (volts.length = 9) && decide (currents.length = 9)
  | .getInfo _ body => bodyOk body
  | .readSensors _ body => bodyOk body
  | .readLog _ body => bodyOk body
  | .updateErase _ body => bodyOk body
  | .updateWrite _ body => bodyOk body
  | .updateVerify _ body => bodyOk body
  | .updateActivate _ body => bodyOk body
  | .propose _ body => bodyOk body
  | .sign _ body => bodyOk body
  | .commit _ body => bodyOk body
  | .cancel _ body => bodyOk body
  | .getProposal _ body => bodyOk body
  | .debugChallenge _ body => bodyOk body
  | .debugResponse _ body => bodyOk body
  | .debugLock _ body => bodyOk body
  | .setPartyKeys _ body => bodyOk body
  | .powerOnReset uv => uv.length = 8
  | .rsCheckDone uv => uv.length = 8
  | .rsReadback uv => uv.length = 16
  | .lnLvlCommit .. | .dacSettled .. | .adcStart .. | .comparatorEdge .. | .driverOvercurrent .. | .pmuOvercurrent ..
  | .clampEvent .. | .lnEvtStatusClear .. | .tsetTakesEffect .. | .testerCycle .. | .granuleBoundary ..
  | .activityWindowEnd .. | .lnActCtrlWrite .. | .lnTsrSelWrite .. | .lnTapSelWrite .. | .decisionPoint ..
  | .segmentFetch .. | .nop .. | .halt .. | .play .. | .playn .. | .idle .. | .jmp .. | .jif .. | .call .. | .ret ..
  | .loop .. | .endl .. | .matchEntry .. | .matchIterationsExhausted .. | .waitEntry .. | .barEntry ..
  | .waitBarTimeout .. | .apgrun .. | .apgld .. | .setf .. | .clrf .. | .arm .. | .fire .. | .capt .. | .mark ..
  | .ldc .. | .sym .. | .coupledPeerFault .. | .coxCtrlReset .. | .heatLaunch .. | .holdTakesEffect ..
  | .heatResumeTick .. | .deviceFlagApply | .regattaFlagApply | .coxDflagsSet .. | .coxDflagsClr .. | .coxRflagsSet ..
  | .coxRflagsClr .. | .coxTblSelWrite .. | .coxCfgWrite .. | .coxBindWrite .. | .patternConfigWrite .. | .regionAlloc ..
  | .regionFree .. | .regionZeroingDone .. | .regionRead .. | .heatStart .. | .heatAdmission .. | .heatCompletion ..
  | .captureWriteLanded .. | .rawWindowEnd .. | .fcCntClr .. | .fcDrainReq .. | .fcGeomWrite .. | .drainStart
  | .drainDone | .failstoreRead .. | .mergeDone .. | .failstoreFree .. | .nvmeDriveError .. | .nvmePortOnline ..
  | .timSetup .. | .timArm .. | .timDisarm .. | .timConfigWrite .. | .timGateChange .. | .timStartEdge ..
  | .timStopEdge .. | .timTimeout .. | .timDeadTimeEnd .. | .timResStatRead .. | .refclkLost | .refclkReturnRecognised
  | .pllRelocked | .trgGrpArm .. | .trgGrpDisarm .. | .trgGrpCfgWrite .. | .trigInEdge .. | .fireCommit ..
  | .rearmInstantKnown .. | .trigOutPulse | .trigOutPulseEnd | .trgOutCfgWrite .. | .acqSetup .. | .acqArm ..
  | .acqStart .. | .acqStop .. | .acqAdcFree .. | .acqPostComplete .. | .logPacketEnter | .logIntakeToBank | .logBankSwap
  | .logSwapTimeout | .logLostPktsRead | .logLostWordsRead | .laneTempRead .. | .interpolatedTableInstall ..
  | .calItemStart .. | .handoverShadowStart .. | .handoverSwitch .. | .slotFlashSave | .calRequest .. | .calReq ..
  | .calDtWrite .. | .ezDataFlit .. | .ezReplayTimeout .. | .ezLinkDown .. | .ezLinkTrained .. | .ezEvtEasyall ..
  | .ezEvtFire .. | .ezEvtArm .. | .ezEvtDone .. | .ezEvtRflag .. | .ezEvtCrew .. | .ezEvtHold .. | .ezEvtRole ..
  | .ezEvtTt .. | .ezEvtLink .. | .ezOrderedEventApply | .orphan | .ezCtrlEnum | .ezCtrlSurvey | .ezCtrlTakeover
  | .enumerationDone .. | .skewSurveyDone | .skewSlewStep | .ezRoleGo .. | .roleRequestTimeout | .frameStart
  | .catchInPulse .. | .catchMiss | .strokeGeneration | .generationTimeout | .ezStrokeWrite .. | .easyallRaise
  | .easyallClear | .easyallNLow | .easyallIgnoreEnd .. | .heatHold .. | .heatResume .. | .abort .. | .crewMap ..
  | .claim .. | .release .. | .lock .. | .lockGrant .. | .lockTimeout .. | .unlock .. | .barrier .. | .modeSet ..
  | .commandFetch .. | .commandStart .. | .commandCommit .. | .hqSqTailWrite .. | .hqCqHeadWrite .. | .hqSqCfgWrite ..
  | .hqCqCfgWrite .. | .hqSqRestart .. | .hqCtxReset .. | .gblCtrlDevReset .. | .hostDeviceReset .. | .gblApSelWrite ..
  | .gblLockWrite .. | .apertureRead .. | .apertureWrite .. | .registerWrite .. | .umpireEvent .. | .wireFault ..
  | .umpireWindowClose .. | .reactionTimerExpiry .. | .quietRecovery .. | .umpSrcClear .. | .umpSrcForce ..
  | .umpWireInj .. | .umpSrcConfigWrite .. | .boathouseWatchdogExpiry .. | .crossDieCheck .. | .proposalExpiry
  | .debugChallengeExpiry | .setEndpointId .. | .getEndpointId .. | .getMctpVersionSupport .. | .getMessageTypeSupport ..
  | .getVendorDefinedMessageSupport .. | .tapInstructionLoad .. | .wakeDetected .. | .wakeDetectorArmed .. | .pgAsserted ..
  | .powerGroupEnable | .pllLocked | .bootComplete | .pgTimeout | .pllLockTimeout | .wakeRetry | .stopEntry | .pgLoss ..
  | .vaonLoss | .resetN | .rootPllLockLoss | .railSenseEvent .. | .rsSnsThrWrite .. | .rsCheck .. | .refclkReturning
  | .resetNRelease | .pcieUncorrectableError .. | .dieToDieInterfaceError .. | .pmuCompliance ..
  | .unsettledOutputSettles .. | .ezEvtReservedType .. => true

end Sys2Proof
end

