-- ==== Sys2Proof/Tests/Slice0.lean ====
section
/-! SUPPORT. Tests. The first part gives, for every obligation that speaks of commands completing, concrete states and operands
that meet the hypotheses of its clauses (witness_...), and states on which its commands have an effect (effects_...); then come
well-formedness, results that the spec's own examples state, and witnesses of the other obligations' hypotheses. -/

namespace Sys2Proof.Tests

set_option Elab.async false

open Sys2Proof.Machine Sys2Proof.Machine.Completes

/-- A device at the top of its tree, in DOCK with READY = 1, alone in its regatta. -/
def up : State := { State.reset with
  now := 1000
  dev := { DevSt.reset with base := .dock, ready := true }
  ez := { Ez.reset with valid := true, root := true, members := 1 }
  power := { PowerSt.reset with booting := false } }

/-- Command 7 of queue 0, for member 0. -/
def hd : Hdr := ⟨0, 7, 0, 0⟩

/-- A link that begins at address 3. -/
def wA : LinkWork :=
  linkFrom { EngRegs.reset with stack := [9], ctrs := [(0, ⟨3, true, 2, 1, 1⟩)] } none 3

/-- A heat of command 5 of queue 0 that stands at a decision point. -/
def heatA : Heat := { Heat.new 0 5 0 0 ⟨0x10, 0, 0, 0⟩ with
  phase := .decision, bases := [(0, 0)], link := some wA }

/-- A RUNNING engine with one channel, whose binding 0 is region 5. -/
def engA : Engine := { Engine.reset with
  st := .running
  tableValid := true
  crew := 1
  bind := [(0, handleOf 5 1)]
  heat := some heatA }

/-- A VECTOR region of ten granules. -/
def vecA : Region := { Region.reset with live := true, kind := .vector, mask := 1, size := 10 }

/-- Engine 1 runs a heat; it is the arm master and a member of group 2. -/
def upE (r : Engine) : State := { up with
  engines := [(1, r)]
  regions := [(5, vecA)]
  groups := [(2, { Group.reset with cfg := 0x00010000, eng := 2 })] }

/-- Engine 1 with a heat of its own. -/
def upH (h : Heat) : State := upE { engA with heat := some h }

/-- A play of a one-pass PLAY entry at address 4, ten granules long. -/
def playA : Play := ⟨.play, 4, mkEntry 0x02 0 0 0 0 0 ⟨0, 0, 10⟩, 0, 0, 0, 0⟩

/-- A heat between two cycles. -/
def heatC : Heat := { heatA with phase := .cycling, link := none, play := some playA }

/-- A play of an IDLE of eight granules. -/
def playI : Play := ⟨.idle, 4, mkEntry 0x04 0 0 0 8 0 noSeg, 0, 0, 0, 0⟩

/-- The same heat with it. -/
def heatI : Heat := { heatC with play := some playI }

/-- A MATCH on FLAG_SET of device flag 0, three iterations. -/
def matchA : Play := ⟨.matchK, 4, mkEntry 0x10 5 0 32 3 0 ⟨0, 0, 10⟩, 0, 1, 0, 0⟩

/-- A MATCH on TRIG of group 2, three iterations. -/
def matchT : Play := { matchA with entry := mkEntry 0x10 9 0 2 3 0 ⟨0, 0, 10⟩ }

/-- A MATCH on FCSAT. -/
def matchF : Play := { matchA with entry := mkEntry 0x10 8 0 0 3 0 ⟨0, 0, 10⟩ }

/-- Port p is UP. -/
def upP (p : Nat) (x : Port) : State := { up with ports := [(p, x)] }

/-- An UP port towards the parent. -/
def portA : Port := { Port.reset with st := 2, role := 1 }

/-- A regatta of two with this device as member 0. -/
def upR : State := { upP 0 portA with ez := { up.ez with members := 3 } }

/-- An event received on port 0 from member 1. -/
def rxA (payload : BitVec 30) : EvtRx := ⟨0, true, true, false, 1, 1000, payload⟩

/-- Source n in a state. -/
def upU (n : Nat) (f : UmpSrc → UmpSrc) : State := { up with umpSrcs := [(n, f (UmpSrc.reset n))] }

/-- A record in flight. -/
def cmdA (cid : BitVec 16) (opc : Byte) (seq : Nat) (st : Stage) : Cmd := Cmd.fresh 0 cid opc 0 seq st

/-- Commands in flight. -/
def upC (l : List Cmd) : State := { up with host := { HostSt.reset with inflight := l, fetchSeq := 9 } }

/-- Queue pair 0. -/
def upQ (q : QPair) : State := { up with host := { HostSt.reset with qps := [(0, q)] } }

/-- The Boathouse in some state. -/
def upB (f : BhSt → BhSt) : State := { up with bh := f up.bh }

/-- Lane 0's calibration. -/
def upL (l : CalLane) : State := { up with calLanes := [(0, l)] }

/-- A device in Stop, its detectors armed. -/
def stopped : State := { State.reset with
  now := 100000000
  dev := { DevSt.reset with base := .stop }
  power := { PowerSt.reset with pwrEn := 0, pg := 0, booting := false, detArmed := true } }

/-- An attempt to wake, with the groups and power-good signals given. -/
def waking (en pg : BitVec 4) (at_ : Option Nat) : State := { stopped with
  power := { stopped.power with waking := true, attempts := 1, pwrEn := en, pg := pg, pgAt := at_ } }

/-- A finished Log packet of four words. -/
def pktA : Pkt := ⟨2, 1, [1, 2, 3, 4], 0, 0⟩

/-- One packet to address 0x4C, its PEC good, with these bytes. -/
def pkA (l : List Byte) : Packets := [⟨0x4C, true, true, true, 0, l⟩]

/-- A proposal. -/
def propA : Proposal := ⟨[1, 0, 0, 0, 0, 0, 0, 0, 0, 0, 0, 0], false, false, 0⟩

/-- A readable object of 512 captured bytes. -/
def objA : FsObj := { FsObj.reset with
  live := true
  keyGen := 1
  kind := 1
  windowBytes := 512
  blocks := [(0, ⟨0, 1, xtsTweak 0 6 1, [(0, 7)]⟩)] }

/-- Two readable objects, with room for a third. -/
def objsA : State := { up with
  objs := [(6, objA), (7, objA)]
  bh := { BhSt.reset with keys := [(0, 1)] }
  fc := { FailCap.reset with nv := [(0, { Nv.reset with state := 2, cap := 16000000000000 })] } }

/-- A pending proposal is named by its digest. -/
theorem pending_named {s : State} {p : Proposal} (hs : s.bh.proposal = some p) :
    s.pendingOf (bytesBE48 p.digest) = some p := by
  unfold State.pendingOf
  simp [hs, Option.filter]

/-- Command i answers a next state that differs from s. -/
def acts (i : Instr) (s : State) : Bool :=
  match exec i s with
  | .next t => decide (t ≠ s)
  | _ => false

/-- Command i answers a next state in which f is not what it was in s. -/
def changes {α : Type} [DecidableEq α] (f : State → α) (i : Instr) (s : State) : Bool :=
  match exec i s with
  | .next t => !decide (f t = f s)
  | _ => false

/-- A heat whose link has run past the table. -/
def heatP : Heat := { heatA with link := some { wA with pc := 4096 } }

/-- Entry x comes next in the link of heatA, and no fault code of R101 applies to it. -/
abbrev readyA (x : Entry) : Prop := Ready (upH heatA) 1 heatA wA x ∧ wA.fx = []

/-- The link of heatA resolves whichever entry comes next, but one that a fault code of R101 stops; past the table every entry
faults. -/
theorem witness_Entries :
    (readyA (mkEntry 0x00 0 0 0 0 0 noSeg) ∧ readyA (mkEntry 0x01 3 0 0 77 0 noSeg) ∧
    readyA (mkEntry 0x02 0 0 0 0 0 ⟨0, 0, 10⟩) ∧ readyA (mkEntry 0x03 0 0 0 2 0 ⟨0, 0, 10⟩) ∧
    readyA (mkEntry 0x04 0 0 0 8 0 noSeg) ∧ readyA (mkEntry 0x08 0 0 0 0 20 noSeg) ∧
    readyA (mkEntry 0x09 3 1 0 0 20 noSeg) ∧ readyA (mkEntry 0x0A 0 0 0 0 20 noSeg) ∧
    readyA (mkEntry 0x0B 0 0 0 0 0 noSeg) ∧ readyA (mkEntry 0x0C 0 0 1 5 0 noSeg) ∧
    readyA (mkEntry 0x0D 0 0 0 0 0 noSeg) ∧ readyA (mkEntry 0x10 1 1 0 5 0 ⟨0, 0, 10⟩) ∧
    readyA (mkEntry 0x11 1 0 0 8 20 noSeg) ∧ readyA (mkEntry 0x22 0 0 2 8 20 noSeg) ∧
    readyA (mkEntry 0x18 0 0 0 0 20 ⟨0, 0, 10⟩) ∧ readyA (mkEntry 0x19 0 0 9 5 0 noSeg) ∧
    readyA (mkEntry 0x20 0 0 40 0 0 noSeg) ∧ readyA (mkEntry 0x21 0 0 3 0 0 noSeg) ∧
    readyA (mkEntry 0x28 0 0 2 0 0 noSeg) ∧ readyA (mkEntry 0x29 0 0 2 0 0 noSeg) ∧
    readyA (mkEntry 0x2A 0 0 1 5 0 noSeg) ∧ readyA (mkEntry 0x2B 0 0 0 5 0 noSeg) ∧
    readyA (mkEntry 0x30 0 0 7 5 0 noSeg) ∧ readyA (mkEntry 0x38 0 0 2 0 0 noSeg) ∧
    Stands (upH heatP) 1 heatP { wA with pc := 4096 }) ∧
    ∀ x, faultOf (upH heatP) 1 heatP { wA with pc := 4096 } x = some (0x06, 0xFFF) :=
  ⟨by and_intros <;> decide +kernel, fun _ => if_pos (by decide)⟩

theorem witness_LevelCommandsComplete :
    ((∀ s ∈ ([{ up with lanes := [(0, { Lane.reset with lvlBusy := true })] }] : List State), Powered s) ∧
    (∀ s ∈ ([up] : List State), HostUp s) ∧
    Serves up (.levelWrite hd 0 ⟨3, 4, [0, 0, 0x2800]⟩) hd anyRec) ∧
    (∃ (lane : LaneId) (v : BitVec 32) (s : State),
      HostUp s ∧ (s.commitCheck (↑lane) (fld v 0 16) fun c => (s.chan c).staged) = none) ∧
    (∃ (lane : LaneId) (samples : List ℤ) (s : State),
      Powered s ∧ (s.lane ↑lane).adcBusy = true ∧ samples.length = (s.lane ↑lane).adcSkip + (s.lane ↑lane).adcCount) :=
  ⟨by and_intros <;> decide +kernel, ⟨0, 3, up, by decide +kernel⟩,
    ⟨0, [4, 6], { up with lanes := [(0, { Lane.reset with adcBusy := true, adcRunAvg := 1 })] }, by decide +kernel⟩⟩

theorem effects_LevelCommandsComplete :
    acts (.lnLvlCommit 0 3) up ∧
    acts (.levelWrite hd 0 ⟨3, 4, [0, 0, 0x2800]⟩) up ∧
    acts (.dacSettled 0) { up with lanes := [(0, { Lane.reset with lvlBusy := true })] } ∧
    acts (.adcStart 0 0x80000105) up ∧
    acts (.adcMeasurementDone 0 [4, 6] 9 true)
      { up with lanes := [(0, { Lane.reset with adcBusy := true, adcRunAvg := 1 })] } :=
  by and_intros <;> decide +kernel

theorem witness_FrontEndEventsComplete :
    (∀ s ∈ ([up, { up with chans := [(0, { Chan.reset with active := { FeSet.reset with path := 2 } })] },
              { up with chans := [(0, { Chan.reset with active := { FeSet.reset with path := 2, pmuCtrl := 7 } })] }]
            : List State), Powered s) ∧
    (∀ s ∈ ([{ up with
                  lanes := [(0, { Lane.reset with evtOc := 3 })]
                  chans := [(0, { Chan.reset with tripped := true })] }] : List State), HostUp s) :=
  by and_intros <;> decide +kernel

theorem effects_FrontEndEventsComplete :
    acts (.comparatorEdge 3 7 2000000) up ∧
    acts (.driverOvercurrent 0 1) up ∧
    acts (.pmuOvercurrent 0 1)
      { up with chans := [(0, { Chan.reset with active := { FeSet.reset with path := 2 } })] } ∧
    acts (.clampEvent 0 1) up ∧
    acts (.lnEvtStatusClear 0 1)
      { up with
          lanes := [(0, { Lane.reset with evtOc := 3 })]
          chans := [(0, { Chan.reset with tripped := true })] } ∧
    acts (.pmuCompliance 0 true)
      { up with chans := [(0, { Chan.reset with active := { FeSet.reset with path := 2, pmuCtrl := 7 } })] } :=
  by and_intros <;> decide +kernel

theorem witness_TimingCommandsComplete :
    ((∀ s ∈ ([{ up with lanes := [(0, { Lane.reset with actOpen := [(14, 5)] })] }] : List State), Powered s) ∧
    (∀ s ∈ ([up] : List State), HostUp s) ∧
    Serves (upE { Engine.reset with st := .loaded, crew := 1 })
      (.tsetWrite hd 1 2 0 1 8192 [⟨0, 0, 256, 1024, 2048, 256, 3072, 3584⟩]) hd (engineRec 1)) ∧
    (∃ (e : EngineId) (s : State) (h : Heat) (p : PendTset),
      Powered s ∧ (s.eng ↑e).heat = some h ∧ h.pendTsets = [p]) :=
  ⟨by and_intros <;> decide +kernel,
    ⟨1, upH { heatC with phase := .boundary, cycle := 64, pendTsets := [⟨0, 0, 7, 2, 0, 8192, []⟩] },
      { heatC with phase := .boundary, cycle := 64, pendTsets := [⟨0, 0, 7, 2, 0, 8192, []⟩] },
      ⟨0, 0, 7, 2, 0, 8192, []⟩, by decide +kernel⟩⟩

theorem effects_TimingCommandsComplete :
    changes (·.tsets.length) (.tsetWrite hd 1 2 0 1 8192 [⟨0, 0, 256, 1024, 2048, 256, 3072, 3584⟩])
      (upE { Engine.reset with st := .loaded, crew := 1 }) ∧
    acts (.tsetTakesEffect 1)
      (upH { heatC with phase := .boundary, cycle := 64, pendTsets := [⟨0, 0, 7, 2, 0, 8192, []⟩] }) ∧
    acts (.activityWindowEnd 0) { up with lanes := [(0, { Lane.reset with actOpen := [(14, 5)] })] } ∧
    acts (.lnActCtrlWrite 0 0) up ∧
    acts (.lnTsrSelWrite 0 0x105) up ∧
    acts (.lnTapSelWrite 0 0x30105) up :=
  by and_intros <;> decide +kernel

theorem witness_LinkEntriesComplete :
    (∃ (e : EngineId) (flg : Byte) (ctr : Byte) (imm : Word32) (s : State) (h : Heat) (w : LinkWork),
      Ready s e h w (mkEntry 1 0 flg ctr imm 0 noSeg) ∧ w.fx = [] ∧ h.ended = none) ∧
    (∃ (e : EngineId) (cond : Byte) (flg : Byte) (ctr : Byte) (imm : Word32) (s : State) (h : Heat) (w : LinkWork),
      Ready s e h w (mkEntry 1 cond flg ctr imm 0 noSeg)) ∧
    (∃ (e : EngineId) (cond : Byte) (flg : Byte) (ctr : Byte) (tgt : BitVec 16) (s : State) (h : Heat)
        (w : LinkWork), Ready s e h w (mkEntry 9 cond flg ctr 0 tgt noSeg)) :=
  ⟨⟨1, 0, 0, 77, upH heatA, heatA, wA, by decide +kernel⟩,
    ⟨1, 3, 0, 0, 77, upH heatA, heatA, wA, by decide +kernel⟩,
    ⟨1, 3, 1, 0, 20, upH heatA, heatA, wA, by decide +kernel⟩⟩

theorem effects_LinkEntriesComplete :
    acts (.nop 1) (upH heatA) ∧
    acts (.halt 1 0 0 0 77) (upH heatA) ∧
    acts (.jmp 1 20) (upH heatA) ∧
    acts (.jif 1 3 1 0 20) (upH heatA) ∧
    acts (.call 1 20) (upH heatA) ∧
    acts (.ret 1) (upH heatA) ∧
    acts (.loop 1 1 5) (upH heatA) ∧
    acts (.endl 1 0) (upH heatA) ∧
    acts (.apgld 1 9 5) (upH heatA) ∧
    acts (.ldc 1 7 5) (upH heatA) ∧
    acts (.sym 1 2) (upH heatA) :=
  by and_intros <;> decide +kernel

theorem witness_LinkEffectsComplete :
    (∃ (f : ℕ), 32 ≤ f ∧ f < 112) ∧
    (∃ (f : ℕ), 32 ≤ f ∧ f < 112) ∧
    (∃ (e : EngineId) (g : ℕ) (seg : Seg) (s : State) (h : Heat) (w : LinkWork),
      Ready s e h w (mkEntry 2 0 0 0 0 0 seg) ∧ w.fx = [LinkFx.arm g]) ∧
    (∃ (e : EngineId) (g : ℕ) (seg : Seg) (s : State) (h : Heat) (w : LinkWork),
      Ready s e h w (mkEntry 2 0 0 0 0 0 seg) ∧ w.fx = [LinkFx.fire g]) ∧
    (∃ (e : EngineId) (addr : ℕ) (mode : ℕ) (imm : Word32) (b : ℕ) (seg : Seg) (s : State) (h : Heat) (w : LinkWork),
      mode < 4 ∧ Ready s e h w (mkEntry 2 0 0 0 0 0 seg) ∧ w.fx = [LinkFx.capt addr mode imm b]) ∧
    (∃ (e : EngineId) (addr : ℕ) (imm : Word32) (seg : Seg) (s : State) (h : Heat) (w : LinkWork),
      Ready s e h w (mkEntry 2 0 0 0 0 0 seg) ∧ w.fx = [LinkFx.mark addr imm]) :=
  ⟨⟨32, by decide +kernel⟩, ⟨111, by decide +kernel⟩,
    ⟨1, 2, ⟨0, 0, 10⟩, upH { heatA with link := some { wA with fx := [.arm 2] } },
      { heatA with link := some { wA with fx := [.arm 2] } }, { wA with fx := [.arm 2] }, by decide +kernel⟩,
    ⟨1, 2, ⟨0, 0, 10⟩, upH { heatA with link := some { wA with fx := [.fire 2] } },
      { heatA with link := some { wA with fx := [.fire 2] } }, { wA with fx := [.fire 2] }, by decide +kernel⟩,
    ⟨1, 4, 1, 5, 0, ⟨0, 0, 10⟩, upH { heatA with link := some { wA with fx := [.capt 4 1 5 0] } },
      { heatA with link := some { wA with fx := [.capt 4 1 5 0] } }, { wA with fx := [.capt 4 1 5 0] },
      by decide +kernel⟩,
    ⟨1, 4, 5, ⟨0, 0, 10⟩, upH { heatA with link := some { wA with fx := [.mark 4 5] } },
      { heatA with link := some { wA with fx := [.mark 4 5] } }, { wA with fx := [.mark 4 5] }, by decide +kernel⟩⟩

theorem effects_LinkEffectsComplete :
    acts (.setf 1 40) (upH heatA) ∧
    acts (.clrf 1 3) (upH heatA) ∧
    acts (.arm 1 2) (upH heatA) ∧
    acts (.fire 1 2) (upH heatA) ∧
    acts (.capt 1 1 5 0) (upH heatA) ∧
    acts (.mark 1 5) (upH heatA) :=
  by and_intros <;> decide +kernel

theorem witness_PlayEntriesComplete :
    (∃ (e : EngineId) (tgt : BitVec 16) (len : BitVec 20) (s : State) (h : Heat) (w : LinkWork),
      Ready s e h w (mkEntry 24 0 0 0 0 tgt { bind := 0, base := 0, len := len }) ∧ w.fx = []) :=
  ⟨1, 20, 10, upH heatA, heatA, wA, by decide +kernel⟩

theorem effects_PlayEntriesComplete :
    acts (.play 1 ⟨0, 0, 10⟩) (upH heatA) ∧
    acts (.playn 1 2 ⟨0, 0, 10⟩) (upH heatA) ∧
    acts (.idle 1 8) (upH heatA) ∧
    acts (.matchEntry 1 1 1 0 5 ⟨0, 0, 10⟩) (upH heatA) ∧
    acts (.waitEntry 1 1 0 0 8 20) (upH heatA) ∧
    acts (.barEntry 1 2 8 20) (upH heatA) ∧
    acts (.apgrun 1 20 10) (upH heatA) :=
  by and_intros <;> decide +kernel

theorem witness_EngineEventsComplete :
    (∀ s ∈ ([upH heatC] : List State), HostUp s) ∧
    (∃ (e : EngineId) (s : State) (h : Heat) (w : LinkWork), Stands s e h w) ∧
    (∃ (e : EngineId) (a : BitVec 12) (s : State) (h : Heat) (w : LinkWork),
      Stands s e h w ∧ (s.eng ↑e).coupled = false ∧ w.pc = a.toNat) ∧
    (∃ (e : EngineId) (s : State) (h : Heat) (w : LinkWork), Stands s e h w ∧ (s.eng ↑e).coupled = true) ∧
    (∃ (e : EngineId) (s : State) (h : Heat) (p : Play),
      Powered s ∧ (s.eng ↑e).heat = some h ∧ h.link = none ∧ h.play = some p ∧ s.atDecision (s.eng ↑e) h = true ∧
        s.matchSeen (s.eng ↑e) h p ((s.eng ↑e).sample h.next) = some false ∧ p.pass < BitVec.toNat (eImm p.entry) ∧
        condLead p.entry = false) ∧
    (∃ (e : EngineId) (s : State) (h : Heat) (p : Play),
      Powered s ∧ (s.eng ↑e).heat = some h ∧ h.link = none ∧ h.play = some p ∧ s.atDecision (s.eng ↑e) h = true ∧
        s.matchSeen (s.eng ↑e) h p ((s.eng ↑e).sample h.next) = none) ∧
    (∃ (e : EngineId) (s : State) (h : Heat) (p : Play),
      Powered s ∧ (s.eng ↑e).heat = some h ∧ h.link = none ∧ h.play = some p ∧ s.atDecision (s.eng ↑e) h = true ∧
        BitVec.toNat (eImm p.entry) ≤ p.pass) ∧
    (∃ (e : EngineId) (s : State) (h : Heat) (p : Play), Powered s ∧ (s.eng ↑e).heat = some h ∧ h.play = some p) ∧
    (∃ (e : EngineId) (s : State) (h : Heat), Powered s ∧ (s.eng ↑e).heat = some h) ∧
    (∃ (e : EngineId) (s : State) (h : Heat) (at_ : ℕ),
      Powered s ∧ (s.eng ↑e).heat = some h ∧ h.launchAt = some at_ ∧ h.ended = none) ∧
    (∃ (e : EngineId) (s : State) (h : Heat), Powered s ∧ (s.eng ↑e).heat = some h ∧ h.ended = none) ∧
    (∃ (e : EngineId) (s : State) (h : Heat) (at_ : ℕ), Powered s ∧ (s.eng ↑e).heat = some h ∧ h.resumeAt = some at_) :=
  ⟨by decide +kernel,
    ⟨1,
      upE { engA with
            heat := some { heatA with link := some (linkFrom EngRegs.reset none 4) }
            table := [(4, mkEntry 0x02 0 0 0 0 0 ⟨0, 0, 10⟩)] },
      { heatA with link := some (linkFrom EngRegs.reset none 4) }, linkFrom EngRegs.reset none 4, by decide +kernel⟩,
    ⟨1, 3, upH heatA, heatA, wA, by decide +kernel⟩,
    ⟨1,
      { upR with
          engines := [(1, { engA with coupled := true, coupling := 5 })]
          ez := { upR.ez with couplings := [(5, 3)] } }, heatA, wA, by decide +kernel⟩,
    ⟨1, upH { heatC with phase := .decision, play := some matchT },
      { heatC with phase := .decision, play := some matchT }, matchT, by decide +kernel⟩,
    ⟨1,
      { upR with
          engines := [(1,
              { engA with
                  coupled := true
                  coupling := 5
                  heat := some { heatC with next := 262144, phase := .decision, play := some matchF } })]
          ez := { upR.ez with couplings := [(5, 3)] } },
      { heatC with next := 262144, phase := .decision, play := some matchF }, matchF, by decide +kernel⟩,
    ⟨1, upH { heatC with phase := .decision, play := some { matchA with pass := 3 } },
      { heatC with phase := .decision, play := some { matchA with pass := 3 } }, { matchA with pass := 3 },
      by decide +kernel⟩,
    ⟨1, upH { heatC with phase := .expired }, { heatC with phase := .expired }, playA, by decide +kernel⟩,
    ⟨1, upE { engA with heat := some { heatC with cycle := 64 }, peerFaultAt := some 0 },
      { heatC with cycle := 64 }, by decide +kernel⟩,
    ⟨1,
      upE { engA with
            heat := some { heatA with phase := .waiting, link := none, launchAt := some 512, start := 4 }
            table := [(4, mkEntry 0x02 0 0 0 0 0 ⟨0, 0, 10⟩)] },
      { heatA with phase := .waiting, link := none, launchAt := some 512, start := 4 }, 512, by decide +kernel⟩,
    ⟨1, upH { heatC with cycle := 64, next := 49152, hold := some ⟨0, 1⟩ },
      { heatC with cycle := 64, next := 49152, hold := some ⟨0, 1⟩ }, by decide +kernel⟩,
    ⟨1, upE { engA with st := .held, holdCause := 1, heat := some { heatC with resumeAt := some 512 } },
      { heatC with resumeAt := some 512 }, 512, by decide +kernel⟩⟩

theorem effects_EngineEventsComplete :
    acts (.decisionPoint 1 none)
      (upE { engA with
              heat := some { heatA with link := some (linkFrom EngRegs.reset none 4) }
              table := [(4, mkEntry 0x02 0 0 0 0 0 ⟨0, 0, 10⟩)] }) ∧
    acts (.decisionPoint 1 none) (upH { heatC with phase := .decision, play := some matchA }) ∧
    acts (.matchIterationsExhausted 1)
      (upH { heatC with phase := .decision, play := some { matchA with pass := 3 } }) ∧
    acts (.waitBarTimeout 1) (upH { heatC with phase := .expired }) ∧
    acts (.coupledPeerFault 1) (upE { engA with heat := some { heatC with cycle := 64 }, peerFaultAt := some 0 }) ∧
    acts (.coxCtrlReset 1 1) (upH heatC) ∧
    acts (.heatLaunch 1 none)
      (upE { engA with
              heat := some { heatA with phase := .waiting, link := none, launchAt := some 512, start := 4 }
              table := [(4, mkEntry 0x02 0 0 0 0 0 ⟨0, 0, 10⟩)] }) ∧
    acts (.holdTakesEffect 1) (upH { heatC with cycle := 64, next := 49152, hold := some ⟨0, 1⟩ }) ∧
    acts (.heatResumeTick 1)
      (upE { engA with st := .held, holdCause := 1, heat := some { heatC with resumeAt := some 512 } }) :=
  by and_intros <;> decide +kernel

theorem witness_FlagAndEngineRegistersComplete :
    (∀ s ∈ ([up] : List State), HostUp s) ∧
    (∃ (s : State) (p : FlagPend), Powered s ∧ p ∈ s.flags.devPend ∧ p.at_ ≤ s.rtick ∧ ∀ q ∈ s.flags.devPend,
      p.at_ ≤ q.at_) ∧
    (∃ (s : State) (p : FlagPend), Powered s ∧ p ∈ s.flags.regPend ∧ p.at_ ≤ s.rtick ∧ ∀ q ∈ s.flags.regPend,
      p.at_ ≤ q.at_) :=
  ⟨by decide +kernel,
    ⟨{ up with flags := { Flags.reset with devPend := [⟨4, 9, true⟩, ⟨4, 9, false⟩, ⟨8, 1, true⟩] } }, ⟨4, 9, true⟩,
      by decide +kernel⟩,
    ⟨{ up with flags := { Flags.reset with regPend := [⟨4, 9, true⟩, ⟨8, 1, true⟩] } }, ⟨4, 9, true⟩,
      by decide +kernel⟩⟩

theorem effects_FlagAndEngineRegistersComplete :
    acts (.deviceFlagApply)
      { up with flags := { Flags.reset with devPend := [⟨4, 9, true⟩, ⟨4, 9, false⟩, ⟨8, 1, true⟩] } } ∧
    acts (.regattaFlagApply) { up with flags := { Flags.reset with regPend := [⟨4, 9, true⟩, ⟨8, 1, true⟩] } } ∧
    acts (.coxDflagsSet 1 5) up ∧
    acts (.coxDflagsClr 1 5) up ∧
    acts (.coxRflagsSet 1 5) up ∧
    acts (.coxRflagsClr 1 5) up ∧
    acts (.coxTblSelWrite 1 0x10003) up ∧
    acts (.coxCfgWrite 1 0x30002) up ∧
    acts (.coxBindWrite 1 0 5) up ∧
    acts (.patternConfigWrite 1 .apgCfg 5) up :=
  by and_intros <;> decide +kernel

theorem witness_CyclesComplete :
    (∃ (e : EngineId) (s : State) (h : Heat) (p : Play),
      Powered s ∧ (s.eng ↑e).st = EngState.running ∧ (((s.fetchDue ↑e).startGranule ↑e).eng ↑e).heat = some h ∧
        h.play = some p ∧ h.phase = HeatPhase.cycling ∧
        ((s.fetchDue ↑e).startGranule ↑e).blocked (((s.fetchDue ↑e).startGranule ↑e).eng ↑e) h = false) ∧
    (∃ (e : EngineId) (s : State) (h : Heat) (p : Play),
      Powered s ∧ (s.eng ↑e).heat = some h ∧ h.play = some p ∧ (s.eng ↑e).st = EngState.running ∧
        h.phase = HeatPhase.boundary) ∧
    (∃ (e : EngineId) (s : State) (h : Heat), Powered s ∧ (s.eng ↑e).heat = some h) :=
  ⟨⟨1, upH heatI, { heatI with begun := true }, playI, by decide +kernel⟩,
    ⟨1, upH { heatC with phase := .boundary, cycle := 64 }, { heatC with phase := .boundary, cycle := 64 }, playA,
      by decide +kernel⟩, ⟨1, upH heatC, heatC, by decide +kernel⟩⟩

theorem effects_CyclesComplete :
    acts (.testerCycle 1) (upH heatI) ∧
    acts (.granuleBoundary 1) (upH { heatC with phase := .boundary, cycle := 64 }) ∧
    acts (.segmentFetch 1 0 2 true) (upH heatC) :=
  by and_intros <;> decide +kernel

theorem witness_TablesComplete :
    Serves (upE { Engine.reset with st := .loaded, crew := 1 })
      (.tableLoad hd 1 0 2 1 [mkEntry 0x04 0 0 0 8 0 noSeg]) hd (engineRec 1) ∧
    Serves (upE { Engine.reset with st := .loaded, crew := 1 })
      (.tablePatch hd 1 0 2 1 [mkEntry 0x04 0 0 0 8 0 noSeg]) hd (engineRec 1) ∧
    Serves (upE Engine.reset) (.segmentWrite hd (handleOf 5 1) 2 1 (List.replicate 512 9)) hd anyRec :=
  by and_intros <;> decide +kernel

theorem effects_TablesComplete :
    acts (.tableLoad hd 1 0 2 1 [mkEntry 0x04 0 0 0 8 0 noSeg]) (upE { Engine.reset with st := .loaded, crew := 1 }) ∧
    acts (.tablePatch hd 1 0 2 1 [mkEntry 0x04 0 0 0 8 0 noSeg])
      (upE { Engine.reset with st := .loaded, crew := 1 }) ∧
    acts (.segmentWrite hd (handleOf 5 1) 2 1 (List.replicate 512 9)) (upE Engine.reset) :=
  by and_intros <;> decide +kernel

theorem witness_RegionsComplete :
    ((∀ s ∈ ([{ up with fc := { FailCap.reset with zeroing := [(5, 4096)] } },
              { up with regions := [(5, { Region.reset with live := true, size := 65536, map := some 0 })] }] :
          List State), Powered s) ∧
    Serves up (.regionAlloc hd 2 0 0 4096 0) hd (allocRec 2 0) ∧
    Serves (upE Engine.reset) (.regionFree hd (handleOf 5 1)) hd anyRec ∧
    Serves { up with regions := [(5, { Region.reset with live := true, size := 4096 })] }
      (.regionRead hd (handleOf 5 1) 16 4) hd anyRec ∧
    Serves { up with regions := [(5, { Region.reset with live := true, size := 4096 })] }
      (.regionWrite hd (handleOf 5 1) 16 2 [1, 2]) hd anyRec) ∧
    (∃ (s : State), HostUp s ∧ MemoriesOk s) :=
  ⟨by and_intros <;> decide +kernel,
    ⟨{ up with regions := [(5, { Region.reset with live := true, size := 65536, map := some 0 })] },
      by decide +kernel, by unfold MemoriesOk; decide +kernel⟩⟩

theorem effects_RegionsComplete :
    acts (.regionFree hd (handleOf 5 1)) (upE Engine.reset) ∧
    acts (.regionZeroingDone 5) { up with fc := { FailCap.reset with zeroing := [(5, 4096)] } } ∧
    acts (.regionRead hd (handleOf 5 1) 16 4)
      { up with regions := [(5, { Region.reset with live := true, size := 4096 })] } ∧
    acts (.regionWrite hd (handleOf 5 1) 16 2 [1, 2])
      { up with regions := [(5, { Region.reset with live := true, size := 4096 })] } ∧
    acts (.bar2Read 16 4) { up with
          regions := [(5, { Region.reset with live := true, size := 65536, map := some 0 })] } ∧
    acts (.bar2Write 16 [1, 2])
      { up with regions := [(5, { Region.reset with live := true, size := 65536, map := some 0 })] } :=
  by and_intros <;> decide +kernel

theorem witness_HeatsComplete :
    (Serves (upE { Engine.reset with st := .loaded, crew := 1 }) (.heatStart hd 1 4 ⟨0, 0, 0, 0⟩) hd (engineRec 1) ∧
    Serves (upH heatC) (.heatHold hd 1) hd (engineRec 1) ∧
    Serves (upE { engA with st := .held, resumable := true, holdCause := 1, heat := some heatC }) (.heatResume hd 1)
      hd (engineRec 1)) ∧
    (∃ (e : EngineId) (s : State) (q : LaunchReq) (l : List LaunchReq),
      Powered s ∧ (s.eng ↑e).launchQ = q :: l ∧ (s.cmd? q.sq q.cid).isSome = true) ∧
    (∃ (e : EngineId) (s : State) (h : Heat) (x : HeatEnd), Powered s ∧ (s.eng ↑e).heat = some h ∧ h.ended = some x) :=
  ⟨by and_intros <;> decide +kernel,
    ⟨1,
      { upC [cmdA 7 0x01 1 .started] with
          engines := [(1, { Engine.reset with st := .loaded, crew := 1, launchQ := [⟨3, 0, 7, 4, ⟨0, 0, 0, 0⟩⟩] })] },
      ⟨3, 0, 7, 4, ⟨0, 0, 0, 0⟩⟩, [], by decide +kernel⟩,
    ⟨1,
      { upC [cmdA 5 0x01 1 .started] with
          engines := [(1,
              { engA with
                  st := .halted
                  heat := some { heatC with phase := .ended, ended := some ⟨stOk, 3, 0, 0⟩ } })] },
      { heatC with phase := .ended, ended := some ⟨stOk, 3, 0, 0⟩ }, ⟨stOk, 3, 0, 0⟩, by decide +kernel⟩⟩

theorem effects_HeatsComplete :
    acts (.heatStart hd 1 4 ⟨0, 0, 0, 0⟩) (upE { Engine.reset with st := .loaded, crew := 1 }) ∧
    acts (.heatStart hd 1 4 ⟨0, 0, 0, 0⟩) (upH heatC) ∧
    acts (.heatAdmission 1)
      { upC [cmdA 7 0x01 1 .started] with
          engines := [(1, { Engine.reset with st := .loaded, crew := 1, launchQ := [⟨3, 0, 7, 4, ⟨0, 0, 0, 0⟩⟩] })] } ∧
    acts (.heatCompletion 1)
      { upC [cmdA 5 0x01 1 .started] with
          engines := [(1,
              { engA with
                  st := .halted
                  heat := some { heatC with phase := .ended, ended := some ⟨stOk, 3, 0, 0⟩ } })] } ∧
    acts (.heatHold hd 1) (upH heatC) ∧
    acts (.heatResume hd 1) (upE { engA with st := .held, resumable := true, holdCause := 1, heat := some heatC }) :=
  by and_intros <;> decide +kernel

theorem witness_CaptureAndDrainComplete :
    (∀ s ∈ ([{ up with chans := [(3, { Chan.reset with failCnt := 9 })] },
              { up with regions := [(5, { vecA with kind := .capture, win := .filled })] }, up] : List State),
      HostUp s) ∧
    (∃ (e : EngineId) (s : State) (w : CapWrite) (rest : List CapWrite),
      Powered s ∧ takeWrite (↑e) s.fc.queue = some (w, rest)) ∧
    (∃ (e : EngineId) (s : State) (h : Heat) (w : RawWin), Powered s ∧ (s.eng ↑e).heat = some h ∧ h.raw = some w) ∧
    (∃ (s : State) (i : ℕ) (n : ℕ), Powered s ∧ s.fc.job = none ∧ s.oldestDrain = some (i, n)) ∧
    (∃ (s : State) (i : ℕ) (j : ℕ), Powered s ∧ s.fc.job = some (Job.drain i j)) :=
  ⟨by decide +kernel,
    ⟨1,
      { up with
          regions := [(5, { vecA with kind := .capture })]
          fc := { FailCap.reset with queue := [⟨1, 5, 1, .bytes 4 [1, 2]⟩] } }, ⟨1, 5, 1, .bytes 4 [1, 2]⟩, [],
      by decide +kernel⟩,
    ⟨1, upH { heatC with raw := some ⟨5, 0, 1, 0, 4, 0, 64, 1, false, true⟩ },
      { heatC with raw := some ⟨5, 0, 1, 0, 4, 0, 64, 1, false, true⟩ }, ⟨5, 0, 1, 0, 4, 0, 64, 1, false, true⟩,
      by decide +kernel⟩,
    ⟨{ up with
          regions := [(5, { vecA with kind := .capture, win := .filled, size := 512, drainPending := true })]
          fc := { FailCap.reset with nv := [(0, { Nv.reset with state := 2, cap := 16000000000000 })] }
          bh := { BhSt.reset with keys := [(0, 1)] } }, 5, 0, by decide +kernel⟩,
    ⟨{ up with
          regions := [(5, { vecA with kind := .capture, win := .draining, mem := [(3, 7)] })]
          fc := { FailCap.reset with job := some (.drain 5 6) }
          objs := [(6, { FsObj.reset with live := true, writing := true })] }, 5, 6, by decide +kernel⟩⟩

theorem effects_CaptureAndDrainComplete :
    acts (.captureWriteLanded 1 false 8)
      { up with
          regions := [(5, { vecA with kind := .capture })]
          fc := { FailCap.reset with queue := [⟨1, 5, 1, .bytes 4 [1, 2]⟩] } } ∧
    acts (.rawWindowEnd 1) (upH { heatC with raw := some ⟨5, 0, 1, 0, 4, 0, 64, 1, false, true⟩ }) ∧
    acts (.fcCntClr 1) { up with chans := [(3, { Chan.reset with failCnt := 9 })] } ∧
    acts (.fcDrainReq (handleOf 5 1)) { up with regions := [(5, { vecA with kind := .capture, win := .filled })] } ∧
    acts (.fcGeomWrite 3 (.fields false) 0x01010101) up ∧
    acts (.drainDone) { up with
          regions := [(5, { vecA with kind := .capture, win := .draining, mem := [(3, 7)] })]
          fc := { FailCap.reset with job := some (.drain 5 6) }
          objs := [(6, { FsObj.reset with live := true, writing := true })] } :=
  by and_intros <;> decide +kernel

theorem witness_FailStoreComplete :
    ((∀ s ∈ ([up] : List State), Powered s) ∧
    Serves objsA (.failstoreRead hd (handleOf 6 1) 4096 2 none) hd failstoreRec ∧
    Serves objsA (.failstoreMerge hd 2 [handleOf 6 1, handleOf 7 1, 0, 0, 0, 0, 0, 0]) hd failstoreRec ∧
    Serves objsA (.failstoreFree hd (handleOf 6 1)) hd failstoreRec) ∧
    (∃ (s : State) (n : ℕ) (sq : QueueId) (cid : BitVec 16) (j : ℕ) (l : List ℕ),
      Powered s ∧ s.fc.job = some (Job.merge n sq cid j l) ∧ j ∉ l) ∧
    (∃ (s : State) (n : ℕ) (sq : QueueId) (cid : BitVec 16) (j : ℕ) (l : List ℕ),
      Powered s ∧ s.fc.job = some (Job.merge n sq cid j l)) :=
  ⟨by and_intros <;> decide +kernel,
    ⟨{ up with
          objs := [(6, objA), (7, objA), (9, { objA with writing := true })]
          fc := { FailCap.reset with job := some (.merge 3 0 7 9 [6, 7]) } }, 3, 0, 7, 9, [6, 7], by decide +kernel⟩,
    ⟨{ up with
          objs := [(6, objA), (7, objA), (9, { objA with writing := true })]
          fc := { FailCap.reset with job := some (.merge 3 0 7 9 [6, 7]) } }, 3, 0, 7, 9, [6, 7], by decide +kernel⟩⟩

theorem effects_FailStoreComplete :
    acts (.failstoreRead hd (handleOf 6 1) 4096 2 none) objsA ∧
    acts (.failstoreFree hd (handleOf 6 1)) objsA ∧
    acts (.nvmeDriveError 1 3 true) up ∧
    acts (.nvmePortOnline 1 true 1000 4 2) up :=
  by and_intros <;> decide +kernel

theorem witness_TimUnitsComplete :
    (∀ s ∈ ([{ up with host := { HostSt.reset with claims := [(515, 0)] }, tims := [(3, Tim.reset)] },
              { up with
                  host := { HostSt.reset with claims := [(515, 0)] }
                  tims := [(3, { Tim.reset with st := .started })] }, up,
              { up with tims := [(3, { Tim.reset with result := some ⟨1, 0, false, false, 5, 6, 7, false⟩ })] }] :
          List State), HostUp s) ∧
    (∀ s ∈ ([{ up with tims := [(3, { Tim.reset with st := .waitGate })] },
              { up with tims := [(3, { Tim.reset with st := .armed, cfg := 0x80000 })] },
              { up with tims := [(3, { Tim.reset with st := .started, timeout := 1000 })] },
              { up with tims := [(3, { Tim.reset with st := .started, timeout := 9 })] },
              { up with tims := [(3, { Tim.reset with st := .dead, deadEnd := 9 })] }] : List State), Powered s) ∧
    Serves { up with host := { HostSt.reset with claims := [(515, 0)] }, tims := [(3, Tim.reset)] }
      (.timSetup hd 3 1 0 0 2 9 1) hd anyRec :=
  by and_intros <;> decide +kernel

theorem effects_TimUnitsComplete :
    acts (.timSetup hd 3 1 0 0 2 9 1)
      { up with host := { HostSt.reset with claims := [(515, 0)] }, tims := [(3, Tim.reset)] } ∧
    acts (.timArm 3) { up with host := { HostSt.reset with claims := [(515, 0)] }, tims := [(3, Tim.reset)] } ∧
    acts (.timDisarm 3) { up with
          host := { HostSt.reset with claims := [(515, 0)] }
          tims := [(3, { Tim.reset with st := .started })] } ∧
    acts (.timConfigWrite 3 .ofs 5) up ∧
    acts (.timGateChange 3 5) { up with tims := [(3, { Tim.reset with st := .waitGate })] } ∧
    acts (.timStartEdge 3 ⟨⟨99, 0, 0⟩, false, false⟩)
      { up with tims := [(3, { Tim.reset with st := .armed, cfg := 0x80000 })] } ∧
    acts (.timStopEdge 3 ⟨⟨625, 0, 0⟩, false, false⟩)
      { up with tims := [(3, { Tim.reset with st := .started, timeout := 1000 })] } ∧
    acts (.timTimeout 3) { up with tims := [(3, { Tim.reset with st := .started, timeout := 9 })] } ∧
    acts (.timDeadTimeEnd 3) { up with tims := [(3, { Tim.reset with st := .dead, deadEnd := 9 })] } ∧
    acts (.timResStatRead 3)
      { up with tims := [(3, { Tim.reset with result := some ⟨1, 0, false, false, 5, 6, 7, false⟩ })] } :=
  by and_intros <;> decide +kernel

theorem witness_ReferenceAndTriggersComplete :
    (∀ s ∈ ([up, { up with ref := { RefState.reset with present := false, relocked := false } },
              { up with now := 2000000, ref := { RefState.reset with present := false, returning := true } },
              { up with ref := { RefState.reset with present := false, relocked := false, relocking := true } },
              { up with groups := [(2, { Group.reset with cfg := 0x01000001, st := .armed })] },
              { up with
                  groups := [(2,
                      { Group.reset with cfg := 1, st := .armed, armAt := some 0, fires := [⟨100, 0, 0, 3, 0⟩] })] },
              { up with
                  groups := [(2,
                      { Group.reset with
                          cfg := 1
                          st := .dead
                          fireTick := 100
                          decided := some ⟨100, 0, 0, 3, 0⟩
                          dones := [(0, 200)] })] }, { up with trg := { Trg.reset with outRise := [9] } },
              { up with trg := { Trg.reset with outHigh := true, outFall := 9 } }] : List State), Powered s) ∧
    (∀ s ∈ ([{ up with groups := [(2, { Group.reset with cfg := 2, st := .idle })] }, up] : List State), HostUp s) :=
  by and_intros <;> decide +kernel

theorem effects_ReferenceAndTriggersComplete :
    acts (.refclkLost) up ∧
    acts (.refclkReturning) { up with ref := { RefState.reset with present := false, relocked := false } } ∧
    acts (.refclkReturnRecognised)
      { up with now := 2000000, ref := { RefState.reset with present := false, returning := true } } ∧
    acts (.pllRelocked) { up with
          ref := { RefState.reset with present := false, relocked := false, relocking := true } } ∧
    acts (.trgGrpArm 2) { up with groups := [(2, { Group.reset with cfg := 2, st := .idle })] } ∧
    acts (.trgGrpDisarm 2) { up with groups := [(2, { Group.reset with cfg := 2, st := .idle })] } ∧
    acts (.trgGrpCfgWrite 2 .win 5) { up with groups := [(2, { Group.reset with cfg := 2, st := .idle })] } ∧
    acts (.trigInEdge true) { up with groups := [(2, { Group.reset with cfg := 0x01000001, st := .armed })] } ∧
    acts (.fireCommit 2) { up with
          groups := [(2, { Group.reset with cfg := 1, st := .armed, armAt := some 0, fires := [⟨100, 0, 0, 3, 0⟩] })] } ∧
    acts (.rearmInstantKnown 2)
      { up with
          groups := [(2,
              { Group.reset with
                  cfg := 1
                  st := .dead
                  fireTick := 100
                  decided := some ⟨100, 0, 0, 3, 0⟩
                  dones := [(0, 200)] })] } ∧
    acts (.trigOutPulse) { up with trg := { Trg.reset with outRise := [9] } } ∧
    acts (.trigOutPulseEnd) { up with trg := { Trg.reset with outHigh := true, outFall := 9 } } ∧
    acts (.trgOutCfgWrite 0x00010150) up :=
  by and_intros <;> decide +kernel

theorem witness_AcquisitionAndLogComplete :
    (∀ s ∈ ([{ up with
                  host := { HostSt.reset with claims := [(768, 0)] }
                  acqs := [(0, { Acq.reset with region := handleOf 5 1, post := 4 })]
                  regions := [(5, { vecA with kind := .shared, size := 65536 })] },
              { up with
                  host := { HostSt.reset with claims := [(768, 0)] }
                  acqs := [(0, { Acq.reset with st := .pre, post := 4 })]
                  regions := [(5, { vecA with kind := .shared, size := 65536 })] },
              { up with log := { LogSt.reset with draining := [⟨5, true, none⟩] } },
              { up with log := { LogSt.reset with lostPkts := 3, lostWords := 4 } }] : List State), HostUp s) ∧
    (∀ s ∈ ([{ up with
                  host := { HostSt.reset with claims := [(768, 0)] }
                  acqs := [(0, { Acq.reset with st := .waitAdc, post := 4 })]
                  regions := [(5, { vecA with kind := .shared, size := 65536 })] },
              { up with
                  host := { HostSt.reset with claims := [(768, 0)] }
                  acqs := [(0, { Acq.reset with st := .post, post := 4 })]
                  regions := [(5, { vecA with kind := .shared, size := 65536 })] },
              { up with
                  host := { HostSt.reset with claims := [(768, 0)] }
                  acqs := [(0, { Acq.reset with st := .post, post := 4, nSamples := 4, hostStart := true })]
                  regions := [(5, { vecA with kind := .shared, size := 65536 })] },
              { up with log := { LogSt.reset with finished := [pktA] } },
              { up with log := { LogSt.reset with intake := [⟨3, pktA⟩] } },
              { up with log := { LogSt.reset with filling := [⟨3, pktA⟩] } },
              { up with
                  now := 5000000
                  log := { LogSt.reset with cfg := 0x00010000, swap := 0x00010001, filling := [⟨3, pktA⟩] } }] :
          List State), Powered s) ∧
    Serves { up with
          host := { HostSt.reset with claims := [(768, 0)] }
          acqs := [(0, Acq.reset)]
          regions := [(5, { vecA with kind := .shared, size := 65536 })] }
      (.acqSetup hd 0 1 0x00100011 0 4 1 (handleOf 5 1) 0 0) hd anyRec :=
  by and_intros <;> decide +kernel

theorem effects_AcquisitionAndLogComplete :
    acts (.acqSetup hd 0 1 0x00100011 0 4 1 (handleOf 5 1) 0 0)
      { up with
          host := { HostSt.reset with claims := [(768, 0)] }
          acqs := [(0, Acq.reset)]
          regions := [(5, { vecA with kind := .shared, size := 65536 })] } ∧
    acts (.acqArm 0) { up with
          host := { HostSt.reset with claims := [(768, 0)] }
          acqs := [(0, { Acq.reset with region := handleOf 5 1, post := 4 })]
          regions := [(5, { vecA with kind := .shared, size := 65536 })] } ∧
    acts (.acqStart 0) { up with
          host := { HostSt.reset with claims := [(768, 0)] }
          acqs := [(0, { Acq.reset with st := .pre, post := 4 })]
          regions := [(5, { vecA with kind := .shared, size := 65536 })] } ∧
    acts (.acqStop 0) { up with
          host := { HostSt.reset with claims := [(768, 0)] }
          acqs := [(0, { Acq.reset with st := .pre, post := 4 })]
          regions := [(5, { vecA with kind := .shared, size := 65536 })] } ∧
    acts (.acqAdcFree 0) { up with
          host := { HostSt.reset with claims := [(768, 0)] }
          acqs := [(0, { Acq.reset with st := .waitAdc, post := 4 })]
          regions := [(5, { vecA with kind := .shared, size := 65536 })] } ∧
    acts (.acqSample 0 [7])
      { up with
          host := { HostSt.reset with claims := [(768, 0)] }
          acqs := [(0, { Acq.reset with st := .post, post := 4 })]
          regions := [(5, { vecA with kind := .shared, size := 65536 })] } ∧
    acts (.acqPostComplete 0)
      { up with
          host := { HostSt.reset with claims := [(768, 0)] }
          acqs := [(0, { Acq.reset with st := .post, post := 4, nSamples := 4, hostStart := true })]
          regions := [(5, { vecA with kind := .shared, size := 65536 })] } ∧
    acts (.logPacketEnter) { up with log := { LogSt.reset with finished := [pktA] } } ∧
    acts (.logIntakeToBank) { up with log := { LogSt.reset with intake := [⟨3, pktA⟩] } } ∧
    acts (.logBankSwap) { up with log := { LogSt.reset with filling := [⟨3, pktA⟩] } } ∧
    acts (.logSwapTimeout) { up with
          now := 5000000
          log := { LogSt.reset with cfg := 0x00010000, swap := 0x00010001, filling := [⟨3, pktA⟩] } } ∧
    acts (.logRead 0 1) { up with log := { LogSt.reset with draining := [⟨5, true, none⟩] } } ∧
    acts (.logLostPktsRead) { up with log := { LogSt.reset with lostPkts := 3, lostWords := 4 } } ∧
    acts (.logLostWordsRead) { up with log := { LogSt.reset with lostPkts := 3, lostWords := 4 } } :=
  by and_intros <;> decide +kernel

theorem witness_CalibrationComplete :
    (∀ s ∈ ([up, upL { CalLane.reset with interp := [(3, ⟨List.replicate 32 1024, [], 9⟩)] },
              upL { CalLane.reset with inRound := true, todo := [3] },
              upL { CalLane.reset with phase := 1, item := 3 },
              upL { CalLane.reset with phase := 2, item := 3, shadowEnd := some 512 },
              upL { CalLane.reset with phase := 5, active := [17] },
              { up with cal := { CalSt.reset with unsaved := true } },
              { up with
                  calLanes := (List.range 16).map (fun k => (k, { CalLane.reset with svTodo := some [] }))
                  dev := { up.dev with base := .survey }
                  cal := { CalSt.reset with surveyBusy := true } }] : List State), Powered s) ∧
    (∀ s ∈ ([up] : List State), HostUp s) ∧
    Serves up (.calRequest hd 5) hd fun r => bit r.perms 7 :=
  by and_intros <;> decide +kernel

theorem effects_CalibrationComplete :
    acts (.laneTempRead 0 9000) up ∧
    acts (.interpolatedTableInstall 0 3)
      (upL { CalLane.reset with interp := [(3, ⟨List.replicate 32 1024, [], 9⟩)] }) ∧
    acts (.calItemStart 0) (upL { CalLane.reset with inRound := true, todo := [3] }) ∧
    acts (.handoverShadowStart 0) (upL { CalLane.reset with phase := 1, item := 3 }) ∧
    acts (.handoverSwitch 0 544) (upL { CalLane.reset with phase := 2, item := 3, shadowEnd := some 512 }) ∧
    acts (.vernierMeasurementDone 0 17 (List.replicate 32 32768) (List.replicate 32 32768))
      (upL { CalLane.reset with phase := 5, active := [17] }) ∧
    acts (.slotFlashSave) { up with cal := { CalSt.reset with unsaved := true } } ∧
    acts (.calRequest hd 5) up ∧
    acts (.calReq 5) up ∧
    acts (.calDtWrite 16) up ∧
    acts (.surveyRunEnd 2500000 [] [] 0)
      { up with
          calLanes := (List.range 16).map (fun k => (k, { CalLane.reset with svTodo := some [] }))
          dev := { up.dev with base := .survey }
          cal := { CalSt.reset with surveyBusy := true } } :=
  by and_intros <;> decide +kernel

theorem witness_LinkFlitsComplete :
    (∀ s ∈ ([upP 0 portA, { upP 0 { portA with unacked := [(0, 5), (1, 6)] } with now := 2000 },
              upP 0 { portA with role := 2, route := 2 }, upP 0 { portA with st := 1 },
              { upR with groups := [(2, { Group.reset with cfg := 0x00010100, st := .idle })] }, upR,
              { upR with engines := [(1, { engA with coupled := true, coupling := 5, heat := some heatC })] },
              { upR with
                  engines := [(1, { engA with coupled := true, coupling := 5, heat := some heatC })]
                  ez := { upR.ez with couplings := [(5, 3)] } },
              { upR with ez := { upR.ez with roleBusy := true } },
              upP 0 { portA with unacked := [(0, 5), (1, 6), (2, 7)] },
              { up with
                  groups := [(2, { Group.reset with cfg := 3, st := .idle })]
                  ez := { up.ez with ordered := [⟨400, .arm 2 80 true 0 0⟩] } }] : List State), Powered s) ∧
    (∃ (rx : EvtRx) (s : State), Powered s ∧ (s.port ↑rx.port).up = true ∧ (s.port ↑rx.port).role = 3) :=
  ⟨by decide +kernel,
    ⟨rxA 0x100, { upP 0 { portA with role := 3 } with ez := { up.ez with root := false, id := 1, members := 3 } },
      by decide +kernel⟩⟩

theorem effects_LinkFlitsComplete :
    acts (.ezReplayTimeout 0) { upP 0 { portA with unacked := [(0, 5), (1, 6)] } with now := 2000 } ∧
    acts (.ezLinkDown 0) (upP 0 { portA with role := 2, route := 2 }) ∧
    acts (.ezLinkTrained 0 3 1 2) (upP 0 { portA with st := 1 }) ∧
    acts (.ezEvtFire (rxA 0x2002)) { upR with groups := [(2, { Group.reset with cfg := 0x00010100, st := .idle })] } ∧
    acts (.ezEvtArm (rxA 0x22)) { upR with groups := [(2, { Group.reset with cfg := 0x00010100, st := .idle })] } ∧
    acts (.ezEvtDone (rxA 2)) upR ∧
    acts (.ezEvtRflag (rxA 0x12)) upR ∧
    acts (.ezEvtCrew (rxA 0x405))
      { upR with engines := [(1, { engA with coupled := true, coupling := 5, heat := some heatC })] } ∧
    acts (.ezEvtHold (rxA 3))
      { upR with
          engines := [(1, { engA with coupled := true, coupling := 5, heat := some heatC })]
          ez := { upR.ez with couplings := [(5, 3)] } } ∧
    acts (.ezEvtRole (rxA 0x100)) { upR with ez := { upR.ez with roleBusy := true } } ∧
    acts (.ezEvtTt (rxA 0) 3 4) upR ∧
    acts (.ezEvtLink (rxA 1)) (upP 0 { portA with unacked := [(0, 5), (1, 6), (2, 7)] }) ∧
    acts (.ezEvtReservedType (rxA 0)) upR ∧
    acts (.ezOrderedEventApply)
      { up with
          groups := [(2, { Group.reset with cfg := 3, st := .idle })]
          ez := { up.ez with ordered := [⟨400, .arm 2 80 true 0 0⟩] } } :=
  by and_intros <;> decide +kernel

theorem witness_RegattaComplete :
    (∀ s ∈ ([up, upP 0 { portA with role := 2 }, { up with ez := { up.ez with standby := true } },
              { up with ez := { up.ez with stroke := true } }, upR] : List State), HostUp s) ∧
    (∀ s ∈ ([upR, { up with now := 9000000, ez := { up.ez with surveyBusy := true } },
              { upH heatC with ez := { up.ez with target := -5 } },
              { up with now := 200000, ez := { up.ez with roleBusy := true } },
              { up with now := 262147, ez := { up.ez with stroke := true, grid := true } }, up,
              { upR with now := 1572864, ez := { upR.ez with stroke := true, strokeReg := 0x8100 } },
              { up with now := 5000000, ez := { up.ez with standby := true } }] : List State), Powered s) :=
  by and_intros <;> decide +kernel

theorem effects_RegattaComplete :
    acts (.ezCtrlEnum) up ∧
    acts (.ezCtrlSurvey) (upP 0 { portA with role := 2 }) ∧
    acts (.ezCtrlTakeover) { up with ez := { up.ez with standby := true } } ∧
    acts (.enumerationDone 1 [⟨0, 1, 1, 0⟩]) upR ∧
    acts (.skewSurveyDone) { up with now := 9000000, ez := { up.ez with surveyBusy := true } } ∧
    acts (.skewSlewStep) { upH heatC with ez := { up.ez with target := -5 } } ∧
    acts (.ezRoleGo 0x8) { up with ez := { up.ez with stroke := true } } ∧
    acts (.roleRequestTimeout) { up with now := 200000, ez := { up.ez with roleBusy := true } } ∧
    acts (.frameStart) { up with now := 262147, ez := { up.ez with stroke := true, grid := true } } ∧
    acts (.catchInPulse (-300)) up ∧
    acts (.catchMiss) up ∧
    changes (·.ez.genSent) (.strokeGeneration)
      { upR with now := 1572864, ez := { upR.ez with stroke := true, strokeReg := 0x8100 } } ∧
    acts (.generationTimeout) { up with now := 5000000, ez := { up.ez with standby := true } } ∧
    changes (·.ez.strokeReg) (.ezStrokeWrite 0x8100) upR :=
  by and_intros <;> decide +kernel

theorem witness_EasyAllComplete :
    (∀ s ∈ ([upR, { upP 0 { portA with st := 1 } with now := 2000, ea := { EaSt.reset with cfg := 0 } }, up,
              { up with ea := { EaSt.reset with ignoreTo := some 900 } }] : List State), Powered s) ∧
    (∀ s ∈ ([up, { up with ea := { EaSt.reset with latched := true } }] : List State), HostUp s) :=
  by and_intros <;> decide +kernel

theorem effects_EasyAllComplete :
    changes (·.ea.latched) (.ezEvtEasyall (rxA 5)) upR ∧
    acts (.orphan) { upP 0 { portA with st := 1 } with now := 2000, ea := { EaSt.reset with cfg := 0 } } ∧
    acts (.easyallRaise) up ∧
    acts (.easyallClear) { up with ea := { EaSt.reset with latched := true } } ∧
    acts (.easyallNLow) up ∧
    acts (.easyallIgnoreEnd true) { up with ea := { EaSt.reset with ignoreTo := some 900 } } :=
  by and_intros <;> decide +kernel

theorem witness_OwnershipComplete :
    ((∀ s ∈ ([{ upC [cmdA 9 0x30 1 .started] with
                  host := { (upC [cmdA 9 0x30 1 .started]).host with
                      locks := [(3, { LockSt.reset 3 with waiters := [⟨0, 9, 0, 1, 500⟩] })] } }] : List State),
      Powered s) ∧
    Serves { up with host := { HostSt.reset with claims := [(0, 0), (2, 0), (1025, 0)] } } (.crewMap hd 1 0 5) hd
      (engineRec 1) ∧
    Serves up (.claim hd 2 0 2) hd (claimRec 2 0 2) ∧
    Serves { up with host := { HostSt.reset with claims := [(512, 0)] } } (.release hd 2 0 1) hd anyRec ∧
    Serves up (.lock hd 3 100) hd anyRec ∧
    Serves { up with
          host := { HostSt.reset with locks := [(3, { LockSt.reset 3 with owner := 0, suspect := true })] } }
      (.unlock hd 3 1) hd anyRec ∧
    Serves up (.barrier hd) hd anyRec) ∧
    (∃ (h : Hdr) (tcid : BitVec 16) (tsq : Byte) (s : State),
      Serves s (Instr.abort h tcid tsq) h anyRec ∧ Unnamed s h 4) :=
  ⟨by and_intros <;> decide +kernel, ⟨hd, 9, 0, upC [cmdA 9 0x30 1 .started], by decide +kernel⟩⟩

theorem effects_OwnershipComplete :
    acts (.crewMap hd 1 0 5) { up with host := { HostSt.reset with claims := [(0, 0), (2, 0), (1025, 0)] } } ∧
    acts (.claim hd 2 0 2) up ∧
    acts (.release hd 2 0 1) { up with host := { HostSt.reset with claims := [(512, 0)] } } ∧
    acts (.lock hd 3 100) up ∧
    acts (.lockGrant 3) { upC [cmdA 9 0x30 1 .started] with
          host := { (upC [cmdA 9 0x30 1 .started]).host with
              locks := [(3, { LockSt.reset 3 with waiters := [⟨0, 9, 0, 1, 500⟩] })] } } ∧
    acts (.lockTimeout 0 9)
      { upC [cmdA 9 0x30 1 .started] with
          host := { (upC [cmdA 9 0x30 1 .started]).host with
              locks := [(3, { LockSt.reset 3 with waiters := [⟨0, 9, 0, 1, 500⟩] })] } } ∧
    acts (.unlock hd 3 1) { up with
          host := { HostSt.reset with locks := [(3, { LockSt.reset 3 with owner := 0, suspect := true })] } } ∧
    acts (.barrier hd) up ∧
    acts (.abort hd 9 0) (upC [cmdA 9 0x30 1 .started]) :=
  by and_intros <;> decide +kernel

theorem witness_QueuesComplete :
    (∀ s ∈ ([upQ { QPair.reset with sqEn := true, cqEn := true, sqTail := 2 }, upC [cmdA 9 0x10 1 .fetched],
              upC [{ cmdA 9 0x10 1 .committed with csn := some 0 }]] : List State), Powered s) ∧
    (∀ s ∈ ([upQ { QPair.reset with sqEn := true, cqEn := true, sqTail := 2 },
              upQ { QPair.reset with cqEn := true, cqTail := 2 }, upQ { QPair.reset with cqEn := true },
              upQ QPair.reset,
              upQ { QPair.reset with sqEn := true, cqEn := true, sqTail := 2, stopped := true, failed := true }] :
          List State), HostUp s) :=
  by and_intros <;> decide +kernel

theorem effects_QueuesComplete :
    acts (.commandFetch 0 0x0000000700000010) (upQ { QPair.reset with sqEn := true, cqEn := true, sqTail := 2 }) ∧
    acts (.commandStart 0 9) (upC [cmdA 9 0x10 1 .fetched]) ∧
    acts (.commandCommit 0 9) (upC [{ cmdA 9 0x10 1 .committed with csn := some 0 }]) ∧
    acts (.hqSqTailWrite 0 5) (upQ { QPair.reset with sqEn := true, cqEn := true, sqTail := 2 }) ∧
    acts (.hqCqHeadWrite 0 1) (upQ { QPair.reset with cqEn := true, cqTail := 2 }) ∧
    acts (.hqSqCfgWrite 0 0x104) (upQ { QPair.reset with cqEn := true }) ∧
    acts (.hqCqCfgWrite 0 0x50304) (upQ QPair.reset) ∧
    acts (.hqSqRestart 0) (upQ { QPair.reset with
              sqEn := true
              cqEn := true
              sqTail := 2
              stopped := true
              failed := true }) ∧
    acts (.hqCtxReset 0) (upQ { QPair.reset with sqEn := true, cqEn := true, sqTail := 2 }) :=
  by and_intros <;> decide +kernel

theorem witness_HostAccessComplete :
    (∀ s ∈ ([up, { up with host := { HostSt.reset with apSel := [(2, 0x100)] } }] : List State), Powered s) :=
  by decide +kernel

theorem effects_HostAccessComplete :
    changes (·.dev.base) (.gblCtrlDevReset 0x0D4C0001) up ∧
    changes (·.dev.base) (.hostDeviceReset .flr) up ∧
    acts (.gblApSelWrite 2 0x100) up ∧
    acts (.gblLockWrite 3 0x90000) up ∧
    acts (.apertureRead 2 0x3F0004) { up with host := { HostSt.reset with apSel := [(2, 0x100)] } } ∧
    changes (·.ump.forceDetail) (.apertureWrite 2 0x330008 5)
      { up with host := { HostSt.reset with apSel := [(2, 0x100)] } } ∧
    changes (·.ump.forceDetail) (.registerWrite 0x330008 5) up :=
  by and_intros <;> decide +kernel

theorem witness_UmpireComplete :
    (∀ s ∈ ([up, { (upU 32 fun x => { x with st := .counting, count := 3 }) with now := 1600000000 },
              { (upU 32 fun x => { x with st := .severe }) with now := 200000000 },
              { (upU 61 fun x => { x with st := .severe }) with now := 200000000 },
              { (upU 32 fun x => { x with st := .escalated }) with now := 1600000000 }] : List State), Powered s) ∧
    (∀ s ∈ ([upU 32 fun x => { x with st := .severe, wire := true }, up,
              { up with dev := { up.dev with base := .diag } }] : List State), HostUp s) :=
  by and_intros <;> decide +kernel

theorem effects_UmpireComplete :
    acts (.umpireEvent 32 5) up ∧
    acts (.wireFault 32 true 1) up ∧
    acts (.umpireWindowClose 32) { (upU 32 fun x => { x with st := .counting, count := 3 }) with now := 1600000000 } ∧
    acts (.reactionTimerExpiry 32) { (upU 32 fun x => { x with st := .severe }) with now := 200000000 } ∧
    changes (·.dev.base) (.reactionTimerExpiry 61)
      { (upU 61 fun x => { x with st := .severe }) with now := 200000000 } ∧
    acts (.quietRecovery 32) { (upU 32 fun x => { x with st := .escalated }) with now := 1600000000 } ∧
    acts (.umpSrcClear 32) (upU 32 fun x => { x with st := .severe, wire := true }) ∧
    acts (.umpSrcForce 32) up ∧
    acts (.umpWireInj 0x80003120) { up with dev := { up.dev with base := .diag } } ∧
    acts (.umpSrcConfigWrite 32 .cfg 5) up :=
  by and_intros <;> decide +kernel

theorem witness_BoathouseMessagesComplete :
    Serves up (.getInfo (.queue hd 64 0x1000) []) hd anyRec ∧
    Serves up (.readSensors (.queue hd 64 0x1000) []) hd anyRec ∧
    Serves up (.readLog (.queue hd 64 0x1000) [0, 0, 0, 0, 1, 0, 0, 0]) hd anyRec ∧
    Serves up (.updateErase (.queue hd 64 0x1000) [0, 0, 0, 0, 1, 0, 0, 0]) hd anyRec ∧
    Serves up (.updateWrite (.queue hd 64 0x1000) ([0, 0, 0, 0, 0, 1, 0, 0] ++ List.replicate 256 7 : List Byte)) hd
      anyRec ∧
    Serves up (.updateVerify (.queue hd 64 0x1000) []) hd anyRec ∧
    Serves up (.updateActivate (.queue hd 64 0x1000) []) hd anyRec ∧
    Serves up (.propose (.queue hd 64 0x1000)
          ([1, 0, 0xA7, 0xB0, 2, 0, 0, 0, 0, 0, 0, 0, 8, 0, 0, 0] ++ List.replicate 48 0 ++ [1, 0, 0, 0, 0, 0, 0, 0]
              : List Byte)) hd anyRec ∧
    Serves up (.sign (.queue hd 64 0x1000) (bytesBE48 (sha384 propA.bytes) ++ List.replicate 96 0)) hd anyRec ∧
    Serves up (.commit (.queue hd 64 0x1000) (bytesBE48 (sha384 propA.bytes))) hd anyRec ∧
    Serves up (.cancel (.queue hd 64 0x1000) (bytesBE48 (sha384 propA.bytes))) hd anyRec ∧
    Serves up (.getProposal (.queue hd 64 0x1000) []) hd anyRec ∧
    Serves up (.debugChallenge (.queue hd 64 0x1000) [1, 0, 0, 0]) hd anyRec ∧
    Serves up (.debugResponse (.queue hd 64 0x1000) ([1, 0, 0, 0] ++ List.replicate 96 0)) hd anyRec ∧
    Serves up (.debugLock (.queue hd 64 0x1000) []) hd anyRec ∧
    Serves up (.setPartyKeys (.queue hd 64 0x1000) (List.replicate 192 7)) hd anyRec :=
  by and_intros <;> decide +kernel

theorem effects_BoathouseMessagesComplete :
    acts (.getInfo (.queue hd 64 0x1000) []) up ∧
    acts (.readSensors (.queue hd 64 0x1000) []) up ∧
    acts (.readLog (.queue hd 64 0x1000) [0, 0, 0, 0, 1, 0, 0, 0]) up ∧
    acts (.updateErase (.queue hd 64 0x1000) [0, 0, 0, 0, 1, 0, 0, 0]) up ∧
    acts (.updateWrite (.queue hd 64 0x1000) ([0, 0, 0, 0, 0, 1, 0, 0] ++ List.replicate 256 7 : List Byte)) up ∧
    acts (.updateActivate (.queue hd 64 0x1000) []) (upB fun b => { b with verified := true }) ∧
    acts (.propose (.queue hd 64 0x1000)
          ([1, 0, 0xA7, 0xB0, 2, 0, 0, 0, 0, 0, 0, 0, 8, 0, 0, 0] ++ List.replicate 48 0 ++ [1, 0, 0, 0, 0, 0, 0, 0]
              : List Byte)) up ∧
    acts (.getProposal (.queue hd 64 0x1000) []) up ∧
    acts (.debugChallenge (.queue hd 64 0x1000) [1, 0, 0, 0]) up ∧
    acts (.debugLock (.queue hd 64 0x1000) []) up ∧
    acts (.setPartyKeys (.queue hd 64 0x1000) (List.replicate 192 7)) up :=
  by and_intros <;> decide +kernel

theorem witness_BoathouseEventsComplete :
    (∀ s ∈ ([{ (upB fun b => { b with proposal := some propA }) with now := 960000000000 },
              { (upB fun b => { b with challenge := some (5, 6, 0) }) with now := 96000000000 }, up,
              { up with now := 160000000 }] : List State), Powered s) :=
  by decide +kernel

theorem effects_BoathouseEventsComplete :
    acts (.proposalExpiry) { (upB fun b => { b with proposal := some propA }) with now := 960000000000 } ∧
    acts (.debugChallengeExpiry) { (upB fun b => { b with challenge := some (5, 6, 0) }) with now := 96000000000 } ∧
    acts (.setEndpointId 9 (pkA [0, 9])) up ∧
    acts (.getEndpointId (pkA [1])) up ∧
    acts (.getMctpVersionSupport (pkA [1])) up ∧
    acts (.getMessageTypeSupport (pkA [1])) up ∧
    acts (.getVendorDefinedMessageSupport (pkA [1])) up ∧
    acts (.boathouseWatchdogExpiry 5) { up with now := 160000000 } ∧
    changes (·.bh.temps) (.sensorRead (List.replicate 24 5) (List.replicate 9 6) (List.replicate 9 7)) up ∧
    acts (.crossDieCheck 0 0) up ∧
    acts (.tapInstructionLoad .idcode) up :=
  by and_intros <;> decide +kernel

theorem witness_ModesAndResetsComplete :
    (∀ s ∈ ([{ State.reset with
                  ez := { Ez.reset with valid := true, root := true, members := 1, enumDone := true } },
              { up with power := { up.power with stopAt := some 9 } }, up,
              { State.reset with power := { PowerSt.reset with booting := false } }] : List State), Powered s) ∧
    (∃ (h : Hdr) (mode : Byte) (s : State),
      Serves s (Instr.modeSet h mode) h fun r => bit r.perms 6 ∧ Unnamed s h 57) :=
  ⟨by decide +kernel, ⟨hd, 4, up, by decide +kernel⟩⟩

theorem effects_ModesAndResetsComplete :
    acts (.modeSet hd 4) up ∧
    changes (·.dev.base) (.bootComplete)
      { State.reset with ez := { Ez.reset with valid := true, root := true, members := 1, enumDone := true } } ∧
    acts (.stopEntry) { up with power := { up.power with stopAt := some 9 } } ∧
    acts (.pgLoss 2) up ∧
    acts (.vaonLoss) up ∧
    acts (.powerOnReset []) up ∧
    acts (.resetN) up ∧
    changes (·.power.booting) (.resetNRelease) { State.reset with power := { PowerSt.reset with booting := false } } :=
  by and_intros <;> decide +kernel

theorem effects_WakeComplete :
    acts (.wakeDetected .tone) stopped ∧
    changes (·.power.detArmed) (.wakeDetectorArmed none)
      { stopped with power := { stopped.power with detArmed := false } } ∧
    changes (·.power.pg) (.pgAsserted 1) (waking 3 1 none) ∧
    changes (·.power.pwrEn) (.powerGroupEnable) (waking 3 3 (some 5)) ∧
    changes (·.dev.base) (.pllLocked) (waking 15 15 (some 5)) ∧
    changes (·.power.waking) (.pgTimeout) (waking 3 1 none) ∧
    changes (·.power.waking) (.pllLockTimeout) (waking 15 15 (some 5)) ∧
    changes (·.power.retryAt) (.wakeRetry)
      { stopped with power := { stopped.power with attempts := 1, retryAt := some 9, detArmed := false } } :=
  by and_intros <;> decide +kernel

theorem witness_RailSenseComplete :
    (∀ s ∈ ([up] : List State), HostUp s) ∧
    (∀ s ∈ ([{ up with rs := { RsSt.reset with check := 1 } }, up] : List State), Powered s) :=
  by and_intros <;> decide +kernel

theorem effects_RailSenseComplete :
    changes (fun s => (s.sn 1).uv) (.railSenseEvent 1 2000000) up ∧
    changes (fun s => (s.sn 1).uv) (.unsettledOutputSettles 1 4000000) up ∧
    changes (fun s => (s.sn 1).thr) (.rsSnsThrWrite 1 0x07D00100) up ∧
    changes (·.rs.check) (.rsCheck 3) up ∧
    changes (·.rs.check) (.rsCheckDone [5000]) { up with rs := { RsSt.reset with check := 1 } } ∧
    acts (.rsReadback [9000, 3000000]) up ∧
    acts (.rootPllLockLoss) up ∧
    acts (.pcieUncorrectableError 9) up ∧
    acts (.dieToDieInterfaceError 1 9) up :=
  by and_intros <;> decide +kernel

/-! Well-formedness: an ill-formed command for each check of `Instr.wf`, and well-formed ones. -/

/-- A body of 4,097 bytes. -/
def longBody : List Byte := List.replicate 4097 0

theorem test_wf_refuses_lengths :
    ∀ i ∈ ([.levelWrite hd 0 ⟨1, 0, [5]⟩, .adcMeasurementDone 0 [] 0 false,
      .adcMeasurementDone 0 (List.replicate 4099 0) 0 false, .tsetWrite hd 1 2 0 1 4096 [],
      .tsetWrite hd 1 2 0 257 4096 (List.replicate 257 ⟨0, 0, 0, 0, 0, 0, 0, 0⟩), .tableLoad hd 1 0 0 2 [0],
      .tableLoad hd 1 0 4095 2 [0, 0], .tablePatch hd 1 0 0 2 [0], .tablePatch hd 1 0 4095 2 [0, 0],
      .segmentWrite hd 0 0 1 [0], .regionWrite hd 0 0 2 [0], .failstoreMerge hd 2 [0], .acqSample 0 [], .logRead 8 1,
      .logRead 0 0, .vernierMeasurementDone 0 0 [0] [0], .vernierMeasurementDone 0 0 (List.replicate 96 0) [],
      .surveyRunEnd 0 [] [] 0, .bar2Read (2 ^ 36 - 1) 2, .bar2Write (2 ^ 36 - 1) [0, 0],
      .sensorRead [] (List.replicate 9 0) (List.replicate 9 0), .sensorRead (List.replicate 24 0) [] (List.replicate 9 0),
      .sensorRead (List.replicate 24 0) (List.replicate 9 0) [], .powerOnReset [], .rsCheckDone [0], .rsReadback [0]] :
      List Instr), i.wf = false := by decide +kernel

/-- The sender of a message over MCTP in one packet. -/
def overMctp : MsgSrc := .mctp (pkA [1])

theorem test_wf_refuses_long_messages :
    ∀ m ∈ ([Instr.getInfo, Instr.readSensors, Instr.readLog, Instr.updateErase, Instr.updateWrite,
      Instr.updateVerify, Instr.updateActivate, Instr.propose, Instr.sign, Instr.commit, Instr.cancel,
      Instr.getProposal, Instr.debugChallenge, Instr.debugResponse, Instr.debugLock, Instr.setPartyKeys] :
      List (MsgSrc → List Byte → Instr)), (m overMctp longBody).wf = false := by decide +kernel

theorem test_wf_accepts :
    ∀ i ∈ ([.levelWrite hd 0 ⟨1, 0, List.replicate 13 0⟩, .tableLoad hd 1 0 4095 1 [0], .segmentWrite hd 0 0 0 [],
      .bar2Write (2 ^ 36 - 1) [0], .getInfo overMctp [], .powerOnReset (List.replicate 8 0)] : List Instr),
      i.wf = true := by decide +kernel

/-! Results that the spec's own examples and tables give. -/

/-- The codes of 0 V, 1.2 V and 2.2 V (the examples of R28). -/
theorem test_voltage_codes : codeUv 0x2710 = 0 ∧ codeUv 0x84D0 = 1200000 ∧ codeUv 0xD2F0 = 2200000 := by decide

/-- The refusal that the example after R70 gives, with its detail word. -/
theorem test_tset_refusal :
    ((upE { Engine.reset with st := .loaded, crew := 1 <<< 37 }).tsetRefusal 1 9 0 1024
      [⟨37, 1, 64, 100, 600, 0, 0, 0⟩]).map (fun x => tsetDetail x.1 9 x.2) = some 0x09001A25 := by decide +kernel

/-- The full-rate set of the example after R68 meets the boundary rule against itself and the reset set, and a second one with
STB_OPEN = 40 fu does not. -/
theorem test_boundary_rule :
    (let a : TSet := { TSet.reset with period := 512, mux := 3, dData := 20, dOff := 20, stbOpen := 50 }
     (boundaryAgainst a a 0, boundaryAgainst a TSet.reset 0, (boundaryAgainst { a with stbOpen := 40 } a 0).map (·.rule))) =
      (none, none, some 8) := by decide +kernel

/-- Lock 63 reads 0x003F_001F after reset (R297), and the timing-set defaults stand (R59). -/
theorem test_reset_registers :
    State.reset.readGbl (0x1000 + 4 * 63) = 0x003F001F ∧ (State.reset.tset 300).stbClose = 3584 := by decide +kernel

/-- The example of FIPS 180-4: the digest of the bytes of abc (R326). -/
theorem test_sha384 : sha384 [0x61, 0x62, 0x63] =
    0xCB00753F45A35E8BB5A03D699AC65007272C32AB0EDED1631A8B605A43FF5BED8086072BA1E7CC2358BAECA134C825A7 := by decide +kernel

/-- The log that State.reset holds is the entry of a boot, kind 1, and the write pointer stands after it (R316, R322). -/
theorem test_reset_log :
    State.reset.bh.flash.map (·.1) = (List.range 64).map (logBase + ·) ∧
    (State.reset.bh.flash.map (·.2)).take 60 = (logEntry 0 0 1 0 []).take 60 ∧
    State.reset.bh.logPtr = 1 ∧ State.reset.bh.logSeq = nextLogSeq 0 := by decide +kernel

/-- The overcurrent example of the Umpire: the third event in the window makes source 4 SEVERE (R300). -/
theorem test_umpire_third_event :
    (let s0 := upU 4 fun r => { r with cfg := 0x00000003, win := 0x0032000A }
     let s := ((s0.umpEvent 4 1).umpEvent 4 1)
     ((s.src 4).st, ((s.umpEvent 4 1).src 4).st)) = (.counting, .severe) := by decide +kernel

/-- A write to a device that is not READY, and one that is: BAR0 windows wait for READY (R270). -/
theorem test_ready :
    execLnActCtrlWrite 0 0 { up with dev := { up.dev with ready := false } } =
      .next { up with dev := { up.dev with ready := false } } := rfl

/-! Witnesses of the other statements' hypotheses. -/

/-- Every command answers a next state, in particular where a frame speaks of one. -/
theorem witness_Frames (i : Instr) (s : State) : ∃ t, exec i s = .next t := by
  cases i <;> exact ⟨_, rfl⟩

theorem witness_OtherUnits : (16 * 17 + 3) / 17 ≠ (0 : LaneId).val ∧ (513 : Nat) % 256 ≠ (0 : Byte).toNat ∧
    (0 : Nat) ≠ handleIdx (up.acq 3).region + 1 ∧ 7 ∉ claimRange 0 0 7 := by decide +kernel

theorem witness_RegionBytesOutsideTheStoreStay :
    ((4 : Nat) < (5 : Word64).toNat) ∧ ((5 : Word64).toNat + (2 : Word64).toNat ≤ 7) ∧
    (∃ w rest, takeWrite 1 [⟨1, 5, 1, .bytes 4 [1, 2]⟩] = some (w, rest) ∧ 3 < w.data.span.1 ∧ w.data.span.2 ≤ 6) ∧
    KeysRise (upE engA).regions ∧ (∀ k, k < 1 → (upE engA).bar2At (5 + k) ≠ some (5, 0)) ∧
    ((upE engA).region 5).kind ≠ .shared :=
  ⟨by decide, by decide, ⟨⟨1, 5, 1, .bytes 4 [1, 2]⟩, [], by decide +kernel⟩, by decide +kernel, by decide +kernel,
    by decide +kernel⟩

theorem witness_UpdatesKeepOtherFlash : ∃ (s : State) (a : Nat), ¬ (logBase + 64 * s.bh.logPtr ≤ a) ∧
    a < slotBase s.inactiveB + leNat (([0, 16, 0, 0, 1, 0, 0, 0] : List Byte).take 4) :=
  ⟨State.reset, 0, by decide +kernel⟩

theorem witness_Steps : (∃ (s : State) (c : Instr) (rest : List Instr), s.pending = c :: rest ∧ ∃ t, step s = .next t) ∧
    ∃ s : State, s.pending = [] ∧ KeysRise s.umpSrcs ∧ KeysRise s.engines ∧ ∃ t, step s = .next t :=
  ⟨⟨{ up with pending := [.refclkLost] }, .refclkLost, [], rfl, _, rfl⟩, upH heatC, rfl, by decide +kernel,
    by decide +kernel, _, rfl⟩

theorem witness_StoppedDeviceIgnoresTheRest : stopped.dev.base = .stop ∧ actsInStop .refclkLost = false ∧
    actsInStop .pllLocked = true := by decide

theorem witness_NothingIsWrittenBeforeReady : State.reset.dev.ready = false ∧ Powered State.reset ∧
    waitsReady (.lnActCtrlWrite 0 0) = true ∧ waitsReady .refclkLost = false := by decide

theorem witness_CommandForNoMemberIsRefused :
    (hdr? (.unlock ⟨0, 7, 63, 0⟩ 0 0) = some ⟨0, 7, 63, 0⟩ ∧ Powered up ∧
      (∀ c ∈ up.host.inflight, c.names 0 7 = true → c.stage = .started) ∧ bit up.ez.members 63 = false) ∧
    ∃ s : State, Powered s ∧ (∀ c ∈ s.host.inflight, c.names 0 7 = true → c.stage = .started) ∧ bit s.ez.members 1 = true ∧
      grantsMember (s.recOf ⟨0, 7, 1, 0⟩) 1 = false :=
  ⟨by decide +kernel, { upR with bh := { upR.bh with
    lifecycle := 1, recs := [(0, { EntryRec.all with members := 1 })] } }, by decide +kernel⟩

/-- The staged half of channel 5 names range 5, a reserved code (R42: reason 5), and nothing else of lane 0 fails. -/
def badStaged : State := { up with chans := [(5, { Chan.reset with staged := { FeSet.reset with pmuCtrl := 10 } })] }

theorem witness_CommitAppliesAllOrNothing : HostUp up ∧ (fld (0xFFFF : Word32) 0 16 : BitVec 16) ≠ 0 ∧
    (∀ j < 16, ∀ r ≤ 10, up.reasonApplies j (up.chan j).active (up.chan j).staged r = false) ∧ HostUp badStaged ∧
    badStaged.reasonApplies 5 (badStaged.chan 5).active (badStaged.chan 5).staged 5 = true ∧
    (∀ q < 5, badStaged.reasonApplies 5 (badStaged.chan 5).active (badStaged.chan 5).staged q = false) ∧
    (∀ i < 5, ∀ q ≤ 10, badStaged.reasonApplies i (badStaged.chan i).active (badStaged.chan i).staged q = false) := by
  decide +kernel

/-- A DL4256-M1 with a staged FULL rate on channel 15. -/
def m1Full : State := { up with
  dev := { up.dev with variant := .m1 }
  chans := [(15, { Chan.reset with staged := { FeSet.reset with cfg := 2 } })] }

theorem witness_FullRateIsRefusedOnM1 : HostUp m1Full ∧ m1Full.dev.variant = .m1 ∧ bit (0x8000 : Word32) 15 = true ∧
    (m1Full.chan 15).staged.rate = 2 ∧ Serves m1Full (.levelWrite hd 0 ⟨0x8000, 0, []⟩) hd anyRec ∧ fldN (0 : BitVec 16) 13 3 = 0 ∧
    (levelSet { FeSet.reset with cfg := 2 } ⟨0x8000, 0, []⟩).rate = 2 := by decide +kernel

theorem witness_ActivityEnableChangesOutsideHeats : HostUp up ∧ (∀ j < 16, up.inHeat j = false) ∧ HostUp (upH heatC) ∧
    (upH heatC).inHeat 0 = true ∧ ({ up with lanes := [(0, { Lane.reset with actEn := false })] }.lane 0).actEn = false := by
  decide +kernel

theorem witness_UnlockIsForTheOwner : Serves up (.unlock hd 63 1) hd anyRec ∧ hd.target = 0 ∧ (63 : Byte).toNat < 64 ∧
    (1 : Byte).toNat < 2 ∧ up.lockFree 63 = true ∧
    ∃ s : State, Serves s (.unlock hd 63 1) hd anyRec ∧ s.lockFree 63 = false ∧ (s.lock 63).owner = ctxOfQueue hd.sq :=
  ⟨by decide +kernel, by decide, by decide, by decide, by decide +kernel,
    { up with host := { up.host with locks := [(63, { LockSt.reset 63 with owner := 0 })] } }, by decide +kernel⟩

theorem witness_DeviceSafeSourceHoldsSafe : ∃ s : State, Serves s (.modeSet hd 4) hd (fun r => bit r.perms 6) ∧ s.mode = .safe ∧
    (s.src 0).faulty = true ∧ (s.src 0).action = 2 :=
  ⟨{ upU 0 (fun r => { r with cfg := 0x00000203, st := .severe }) with
      dev := { up.dev with base := .safe }, bh := up.bh }, by decide +kernel⟩

/-- A pair of copies written from one record reads as that record. -/
theorem copies_of_read {α : Type} [DecidableEq α] (f : α → List Byte) (v : α) : (Copies.of f v).read f = v := if_pos rfl

/-- The policy in force at reset. -/
theorem policy_reset : State.reset.bh.policy = Policy.reset := by
  simp only [State.reset, BhSt.policy, BhSt.reset, Policy.reset, copies_of_read, List.map_nil]

/-- The policy store at reset. -/
theorem store_reset : State.reset.bh.store = Copies.of Policy.bytes Policy.reset := by
  unfold State.reset BhSt.reset; rfl

/-- The policy store holds the policy in force at reset. -/
theorem policyStored_reset : PolicyStored State.reset := by
  rw [PolicyStored, store_reset, policy_reset]; exact copies_of_read _ _

theorem witness_Invariants : (∀ n, SnsOk (State.reset.sn n)) ∧ LifecycleOk State.reset ∧ MemoriesOk State.reset := by
  refine ⟨fun n => ?_, ⟨by decide, policyStored_reset, fun p h => nomatch h⟩, by decide +kernel, by decide +kernel, by decide +kernel,
    by decide +kernel, by decide +kernel, by decide +kernel, by decide +kernel⟩
  show SnsOk Sns.reset
  decide +kernel

/-- The worked example of R359: balls and their signals. -/
theorem test_balls :
    (rowName 69 = "CM" ∧ ballAt 69 2 = .channel 200) ∧ (rowName 2 = "B" ∧ ballAt 2 46 = .channel 37) ∧
    (rowName 34 = "AT" ∧ ballAt 34 8 = .signal "E3_RX2_P" ∧ ballAt 34 9 = .signal "E3_RX2_N") ∧
    (rowName 38 = "AY" ∧ ballAt 38 41 = .signal "REFCLK_P" ∧ ballAt 38 42 = .signal "REFCLK_N") := by decide +kernel

/-- Balls of each row that carry b. -/
def ballCount (p : Ball → Bool) : Nat :=
  (List.range 72).foldl (fun n i => n + ((List.range 68).countP fun j => p (ballAt (i + 1) (j + 1)))) 0

/-- The totals of R359 and R361: VSS and the channels. -/
theorem test_ball_totals : ballCount (fun b => b = .vss) = 3486 ∧
    ballCount (fun b => match b with | .channel _ => true | _ => false) = 256 ∧
    ballCount (fun b => b = .vddFe) = 272 := by decide +kernel

end Sys2Proof.Tests
end

/-! Pin channel front end (spec/02): what a commit of staged halves does to the channels and to LN_LVL_STATUS (R41, R42), and
that rate class FULL is refused on a DL4256-M1 (R31). -/

namespace Sys2Proof.Machine

/-! The two halves of a channel's settings (R52) through the operations that move a channel. -/

/-- The active and the staged half of a channel's setting registers (R52). -/
def Chan.settings (r : Chan) : FeSet × FeSet := (r.active, r.staged)

@[simp] theorem Chan.settings_eq_iff {r : Chan} {a f : FeSet} : r.settings = (a, f) ↔ r.active = a ∧ r.staged = f :=
  Prod.mk_inj

/-- A comparator that judges again changes no setting (R33). -/
@[simp] theorem Chan.judgeAt_settings (r : Chan) (fu : Nat) : (r.judgeAt fu).settings = r.settings := by
  unfold Chan.judgeAt
  extract_lets d
  split <;> rfl

/-- A frame that spares the channels keeps each of them. -/
theorem KeepsAllBut.chan {l : Parts} {s t : State} (h : KeepsAllBut l s t) (hl : Part.chans ∉ l) (c : Nat) :
    t.chan c = s.chan c :=
  congrArg (SMap.get (fun _ => Chan.reset) · c) (h .chans hl)

/-- The window fires that follow the move leave the channels alone (R193). -/
@[simp] theorem State.moveChan_chan (s : State) (c : Nat) (new : Chan) (j : Nat) :
    (s.moveChan c new).chan j = if j = c then new else s.chan j := by
  have hfires := KeepsAllBut.foldl (fun s (e : Nat × Cmp) => s.windowFire c e.1 e.2)
    (fun s e => keeps_windowFire s c e.1 e.2)
    (new.cmpHist.take (new.cmpHist.length - (s.chan c).cmpHist.length)).reverse (s.setChan c new)
  exact (hfires.chan (by simp) j).trans (s.setChan_chan j c new)

theorem State.changeChan_settings (s : State) (c fu : Nat) (f : Chan → Chan) (j : Nat) :
    ((s.changeChan c fu f).chan j).settings = if j = c then (f (s.chan c)).settings else (s.chan j).settings := by
  unfold State.changeChan
  extract_lets old new
  by_cases hj : j = c
  · subst hj
    split
    · simp [new, old]
    · simp only [State.updLane_eq, State.setLane_chan, State.moveChan_chan, if_true, Chan.judgeAt_settings]
      rfl
  · split <;> simp [hj]

/-- The channel takes its new active half, and nothing else changes in any channel's settings (R41). -/
theorem State.applyChan_settings (s : State) (c : Nat) (f : FeSet) (j : Nat) :
    ((s.applyChan c f).chan j).settings = (if j = c then f else (s.chan j).active, (s.chan j).staged) := by
  unfold State.applyChan
  extract_lets a t
  have ht (i : Nat) : t.chan i = s.chan i := by
    unfold t
    split <;> simp
  refine (t.changeChan_settings c _ _ j).trans ?_
  rw [ht, ht]
  by_cases hj : j = c <;> simp [hj]

/-- The channels listed of lane k take their new active halves one after the other (R41). -/
theorem State.foldl_applyChan_settings (k : Nat) (f : Nat → FeSet) (js : List Nat) (s : State) (c : Nat) :
    ((js.foldl (fun s j => s.applyChan (16 * k + j) (f (16 * k + j))) s).chan c).settings =
      (if c ∈ js.map (16 * k + ·) then f c else (s.chan c).active, (s.chan c).staged) := by
  induction js generalizing s with
  | nil => simp
  | cons j js ih =>
    obtain ⟨hactive, hstaged⟩ := Chan.settings_eq_iff.1 (s.applyChan_settings (16 * k + j) (f (16 * k + j)) c)
    rw [List.foldl_cons, ih, hactive, hstaged]
    by_cases hc : c = 16 * k + j <;> simp [hc]

/-! The checks of a commit (R41, R42). -/

theorem mem_bitsOf {w : Nat} (n : Nat) (v : BitVec w) (j : Nat) : j ∈ bitsOf n v ↔ j < n ∧ bit v j = true := by
  simp [bitsOf, bit]

/-- The mask of LN_LVL_COMMIT is the low half of the word written. -/
theorem bit_fld_low {n w j : Nat} (v : BitVec n) (hj : j < w) : bit (fld v 0 w : BitVec w) j = bit v j := by
  simp [bit, fld, hj]

/-- Code 0 stands for no reason (R42). -/
@[simp] theorem State.reasonApplies_zero (s : State) (c : Nat) (a f : FeSet) : s.reasonApplies c a f 0 = false := rfl

/-- A channel's reason is r where r applies and no lower code does (R41). -/
theorem State.reason_eq_of_lowest {s : State} {c r : Nat} {f : FeSet} (hr : r ≤ 10)
    (happlies : s.reasonApplies c (s.chan c).active f r = true)
    (hlowest : ∀ q < r, s.reasonApplies c (s.chan c).active f q = false) : s.reason c f = r := by
  have hfind : (List.range 11).find? (fun q => s.reasonApplies c (s.chan c).active f q) = some r :=
    List.find?_range_eq_some.2 ⟨happlies, List.mem_range.2 (by omega), fun q hq => by simp [hlowest q hq]⟩
  rw [State.reason, hfind, Option.getD_some]

/-- A channel's reason is 0 exactly where no code applies (R42). -/
theorem State.reason_eq_zero_iff {s : State} {c : Nat} {f : FeSet} :
    s.reason c f = 0 ↔ ∀ r ≤ 10, s.reasonApplies c (s.chan c).active f r = false := by
  constructor
  · intro h r hr
    unfold State.reason at h
    cases hfind : (List.range 11).find? (fun q => s.reasonApplies c (s.chan c).active f q) with
    | none => simpa using List.find?_eq_none.1 hfind r (List.mem_range.2 (by omega))
    | some q =>
      have hq := List.find?_some hfind
      rw [hfind, Option.getD_some] at h
      simp [h] at hq
  · intro h
    have hfind : (List.range 11).find? (fun q => s.reasonApplies c (s.chan c).active f q) = none :=
      List.find?_eq_none.2 fun r hr => by simp [h r (by have := List.mem_range.1 hr; omega)]
    rw [State.reason, hfind, Option.getD_none]

/-- The checks pass where no channel of the mask has a reason (R41). -/
theorem State.commitCheck_eq_none_iff {s : State} {k : Nat} {mask : BitVec 16} {f : Nat → FeSet} :
    s.commitCheck k mask f = none ↔ ∀ j < 16, bit mask j = true → s.reason (16 * k + j) (f (16 * k + j)) = 0 := by
  simp [State.commitCheck, List.find?_eq_none, mem_bitsOf]

/-- The lowest-numbered failing channel of the mask, and its reason, are what the check names (R41). -/
theorem State.commitCheck_eq_some {s : State} {k j r : Nat} {mask : BitVec 16} {f : Nat → FeSet} (hj : j < 16)
    (hbit : bit mask j = true) (hr : s.reason (16 * k + j) (f (16 * k + j)) = r) (hne : r ≠ 0)
    (hlower : ∀ i < j, bit mask i = true → s.reason (16 * k + i) (f (16 * k + i)) = 0) :
    s.commitCheck k mask f = some (j, r) := by
  have hfind : (bitsOf 16 mask).find? (fun i => decide (s.reason (16 * k + i) (f (16 * k + i)) ≠ 0)) = some j := by
    rw [bitsOf, List.find?_filter, List.find?_range_eq_some]
    refine ⟨?_, List.mem_range.2 hj, fun i hi => ?_⟩
    · have hget : mask.getLsbD j = true := hbit
      simp [hget, hr, hne]
    · by_cases hi' : mask.getLsbD i = true
      · simp [hlower i hi hi']
      · simp [hi']
  rw [State.commitCheck, List.find?_map]
  exact (congrArg (Option.map _) hfind).trans (by simp [hr])

/-- Where a channel of the mask has a reason, the check names a channel and a reason. -/
theorem State.exists_commitCheck_eq_some {s : State} {k j : Nat} {mask : BitVec 16} {f : Nat → FeSet} (hj : j < 16)
    (hbit : bit mask j = true) (hr : s.reason (16 * k + j) (f (16 * k + j)) ≠ 0) :
    ∃ p, s.commitCheck k mask f = some p :=
  Option.ne_none_iff_exists'.1 fun hnone => hr (State.commitCheck_eq_none_iff.1 hnone j hj hbit)

/-- A set of rate class FULL has a reason on a DL4256-M1 (R31, code 6 of R42). -/
theorem State.reason_ne_zero_of_full {s : State} {c : Nat} {f : FeSet} (hm1 : s.dev.variant = .m1) (hfull : f.rate = 2) :
    s.reason c f ≠ 0 := by
  intro h
  have hvariant := State.reason_eq_zero_iff.1 h 6 (by decide)
  simp [State.reasonApplies, hm1, hfull] at hvariant

/-! A commit applies all of its channels' halves or none (R41). -/

/-- Where the checks pass, the masked channels take their new active halves. -/
theorem State.commit_settings_of_pass {s : State} {k : Nat} {mask : BitVec 16} {f : Nat → FeSet}
    (hpass : s.commitCheck k mask f = none) (c : Nat) :
    ((s.commit k mask f).1.chan c).settings =
      (if c ∈ (bitsOf 16 mask).map (16 * k + ·) then f c else (s.chan c).active, (s.chan c).staged) := by
  simp only [State.commit, hpass]
  exact s.foldl_applyChan_settings k f (bitsOf 16 mask) c

/-- Where a check fails, LN_LVL_STATUS names the channel and the reason, and no channel and no queue command changes. -/
theorem State.commit_of_refused {s : State} {k j r : Nat} {mask : BitVec 16} {f : Nat → FeSet}
    (hrefused : s.commitCheck k mask f = some (j, r)) :
    ∃ u : State, s.commit k mask f = (u, some (j, r)) ∧ (∀ c, u.chan c = s.chan c) ∧ u.host = s.host ∧
      (u.lane k).lvlRefused = true ∧ (u.lane k).lvlChannel = BitVec.ofNat 4 j ∧ (u.lane k).lvlReason = BitVec.ofNat 4 r := by
  simp [State.commit, hrefused]

/-- A write of LN_LVL_COMMIT with a mask is a commit of the staged halves. -/
theorem exec_lnLvlCommit {s : State} {lane : LaneId} {v : Word32} (hup : HostUp s) (hmask : (fld v 0 16 : BitVec 16) ≠ 0) :
    exec (.lnLvlCommit lane v) s = .next (s.commit lane.val (fld v 0 16) fun c => (s.chan c).staged).1 := by
  obtain ⟨hpowered, hready⟩ := hup
  show execLnLvlCommit lane v s = _
  simp only [execLnLvlCommit, whenReady, hpowered, hready, if_false, if_true]
  rw [if_neg hmask]

/-- Settles O51: the check of the staged halves decides the commit, which then takes every masked channel or none. -/
theorem commitAppliesAllOrNothing : Obligations.CommitAppliesAllOrNothing := by
  unfold Obligations.CommitAppliesAllOrNothing
  intro lane v s hup hmask bad
  refine ⟨fun hgood => ?_, fun j r hj hbit hr happlies hlowest hlower => ?_⟩
  · have hpass : s.commitCheck lane.val (fld v 0 16) (fun c => (s.chan c).staged) = none :=
      State.commitCheck_eq_none_iff.2 fun j hj hbit =>
        State.reason_eq_zero_iff.2 fun r hr => hgood j r hj (by rwa [bit_fld_low v hj] at hbit) hr
    have hsettings c := Chan.settings_eq_iff.1 (State.commit_settings_of_pass hpass c)
    refine ⟨_, exec_lnLvlCommit hup hmask, fun j hj hbit => ?_, fun c => (hsettings c).2⟩
    rw [(hsettings _).1, if_pos]
    exact List.mem_map_of_mem ((mem_bitsOf 16 _ j).2 ⟨hj, (bit_fld_low v hj).trans hbit⟩)
  · have hreason : s.reason (16 * lane.val + j) (s.chan (16 * lane.val + j)).staged = r :=
      State.reason_eq_of_lowest hr happlies hlowest
    have hne : r ≠ 0 := by
      rintro rfl
      cases happlies
    have hcheck : s.commitCheck lane.val (fld v 0 16) (fun c => (s.chan c).staged) = some (j, r) :=
      State.commitCheck_eq_some hj ((bit_fld_low v hj).trans hbit) hreason hne fun i hi hbit' =>
        State.reason_eq_zero_iff.2 fun q hq => hlower i q hi (by rwa [bit_fld_low v (by omega)] at hbit') hq
    obtain ⟨u, hcommit, hchan, -, hrefused, hchannel, hreason'⟩ := State.commit_of_refused hcheck
    refine ⟨u, (exec_lnLvlCommit hup hmask).trans (by rw [hcommit]), fun c => by simp [hchan], hrefused, ?_, ?_⟩
    · rw [hchannel, BitVec.toNat_ofNat]
      omega
    · rw [hreason', BitVec.toNat_ofNat]
      omega

/-! LEVEL_WRITE (R44, R277). -/

/-- A decision on a command changes no channel. -/
@[simp] theorem State.done_chan (s : State) (h : Hdr) (st d r0 r1) (c : Nat) : (s.done h st d r0 r1).chan c = s.chan c :=
  (keeps_done s h st d r0 r1).chan (by simp) c

/-- Beginning a command changes no channel. -/
@[simp] theorem State.begin_chan (s : State) (h : Hdr) (opc : Byte) (c : Nat) : (s.begin h opc).chan c = s.chan c :=
  (keeps_begin s h opc).chan (by simp) c

@[simp] theorem State.begin_dev (s : State) (h : Hdr) (opc : Byte) : (s.begin h opc).dev = s.dev := by
  rw [State.begin_eq]
  rfl

/-- A mask that names a channel is not 0. -/
theorem ne_zero_of_bit {w : Nat} {v : BitVec w} {j : Nat} (h : bit v j = true) : v ≠ 0 := by
  rintro rfl
  simp [bit] at h

/-- A LEVEL_WRITE whose checks fail is decided with another status than OK in a state that has every channel as it was: with
CLAIMED where another holder claims a channel, else with the status that the mode gives (R44, R291). -/
theorem exec_levelWrite_of_refused {s : State} {h : Hdr} {lane : Byte} {f : LevelFields} {p : Nat × Nat}
    (hserves : Serves s (.levelWrite h lane f) h anyRec) (hlane : lane.toNat < 16) (hsel : fldN f.sel 13 3 = 0)
    (hmask : f.chmask ≠ 0)
    (hrefused : (s.begin h 0x11).commitCheck lane.toNat f.chmask
      (fun c => levelSet ((s.begin h 0x11).chan c).active f) = some p) :
    ∃ (u : State) (st : Byte) (d : Word32), exec (.levelWrite h lane f) s = .next (u.done h st d) ∧ st ≠ stOk ∧
      u.host.inflight = (s.begin h 0x11).host.inflight ∧ ∀ c, u.chan c = s.chan c := by
  obtain ⟨j, r⟩ := p
  have hwf : (decide (lane.toNat < 16) && decide (fldN f.sel 13 3 = 0)) = true := by simp [hlane, hsel]
  have hexec : exec (.levelWrite h lane f) s = execLevelWrite h lane f s := rfl
  rw [hexec, execLevelWrite, hwf, queueCmd_serves s hserves rfl]
  by_cases hclaimed : (s.begin h 0x11).chanClaimed lane.toNat (ctxOfQueue h.sq) f.chmask = true
  · exact ⟨s.begin h 0x11, stClaimed, 0, by simp only [hmask, hclaimed, if_false, if_true], by decide, rfl, by simp⟩
  · obtain ⟨u, hcommit, hchan, hhost, -⟩ := State.commit_of_refused hrefused
    refine ⟨u, if u.mode = .safe then stDeviceSafe else if u.mode = .survey then stNotReady else stBadCommand,
      placeN 32 0 r ||| placeN 32 4 j, by simp only [hmask, hclaimed, if_false, hcommit, Bool.false_eq_true],
      ?_, by rw [hhost], fun c => by simp [hchan]⟩
    split
    · decide
    · split <;> decide

/-- Settles O52: rate class FULL gives a channel of the mask a reason (code 6 of R42), so the commit or LEVEL_WRITE is refused. -/
theorem fullRateIsRefusedOnM1 : Obligations.FullRateIsRefusedOnM1 := by
  unfold Obligations.FullRateIsRefusedOnM1
  constructor
  · intro lane v s j hup hm1 hj hbit hfull
    have hmaskBit : bit (fld v 0 16 : BitVec 16) j = true := (bit_fld_low v hj).trans hbit
    obtain ⟨⟨i, r⟩, hcheck⟩ := State.exists_commitCheck_eq_some (s := s) (k := lane.val) (f := fun c => (s.chan c).staged)
      hj hmaskBit (State.reason_ne_zero_of_full hm1 hfull)
    obtain ⟨u, hcommit, hchan, -, hrefused, -⟩ := State.commit_of_refused hcheck
    exact ⟨u, (exec_lnLvlCommit hup (ne_zero_of_bit hmaskBit)).trans (by rw [hcommit]), hrefused, fun c => by rw [hchan]⟩
  · intro h lane f s j hserves hm1 hlane hsel hbit hfull
    have hj : j < 16 := BitVec.lt_of_getLsbD hbit
    obtain ⟨p, hcheck⟩ := State.exists_commitCheck_eq_some (s := s.begin h 0x11) (k := lane.toNat)
      (f := fun c => levelSet ((s.begin h 0x11).chan c).active f) hj hbit
      (State.reason_ne_zero_of_full (by simpa using hm1) (by simpa using hfull))
    obtain ⟨u, st, d, hexec, hst, hcmds, hchan⟩ :=
      exec_levelWrite_of_refused hserves hlane hsel (ne_zero_of_bit hbit) hcheck
    have hbegun : Begun u.host.inflight h := hcmds ▸ s.begun_begin h 0x11
    exact ⟨_, hexec, ⟨st, hst, decided_done u hbegun st d 0 0⟩, fun c => by simp [hchan]⟩

end Sys2Proof.Machine

/-! Timing format (spec/03): when LN_ACT_CTRL.EN takes a write, and the activity offset while it is 0 (R76, R78). -/

namespace Sys2Proof.Machine

/-- A write to a device that is up goes through (R270, R341). -/
theorem whenReady_of_hostUp {s : State} (hup : HostUp s) (f : State → State) : whenReady s f = f s := by
  obtain ⟨hpowered, hready⟩ := hup
  rw [whenReady, if_neg hpowered, if_pos hready]

/-- A lane is in a heat where one of its sixteen channels is. -/
theorem State.laneInHeat_iff {s : State} {k : Nat} : s.laneInHeat k = true ↔ ∃ j < 16, s.inHeat (16 * k + j) = true := by
  simp only [State.laneInHeat, List.any_eq_true, List.mem_range]

/-- A write of LN_ACT_CTRL is ignored on a lane in a heat and else sets EN from bit 0. -/
theorem exec_lnActCtrlWrite {s : State} {lane : LaneId} {v : Word32} (hup : HostUp s) :
    exec (.lnActCtrlWrite lane v) s = .next (if s.laneInHeat lane.val then s
      else s.setLane lane.val { s.lane lane.val with actEn := bit v 0 }) := by
  show execLnActCtrlWrite lane v s = _
  rw [execLnActCtrlWrite, whenReady_of_hostUp hup, State.updLane_eq]

/-- With EN = 0 no path of the lane has an activity offset, the spare's included (R78). -/
theorem State.pathOffset_of_disabled {s : State} {k : Nat} (h : (s.lane k).actEn = false) (p : Nat) :
    s.pathOffset k p = 0 := by
  simp only [State.pathOffset, h, Bool.false_eq_true, if_false]

/-- Settles O53: EN follows the write exactly where no channel of the lane is in a heat, and gates the offset of every path. -/
theorem activityEnableChangesOutsideHeats : Obligations.ActivityEnableChangesOutsideHeats := by
  unfold Obligations.ActivityEnableChangesOutsideHeats
  refine ⟨fun lane v s hup hidle => ?_, fun lane v s j hup hj hheat => ?_, fun s k j hj hen b t => ?_⟩
  · have hlane : ¬ s.laneInHeat lane.val = true := by
      intro h
      obtain ⟨j, hj, hheat⟩ := State.laneInHeat_iff.1 h
      simp [hidle j hj] at hheat
    refine ⟨_, exec_lnActCtrlWrite hup, ?_⟩
    rw [if_neg hlane]
    exact ⟨by simp, keeps_setLane s _ _⟩
  · rw [exec_lnActCtrlWrite hup, if_pos (State.laneInHeat_iff.2 ⟨j, hj, hheat⟩)]
  · have hk : (16 * k + j) / 16 = k := by omega
    rw [State.actOffset, hk, State.pathOffset_of_disabled hen]

end Sys2Proof.Machine

/-! Host interface (spec/11): who can free a lock, and what a lock's SUSPECT reads after UNLOCK (R292, R294, R295). -/

namespace Sys2Proof.Machine

/-- A frame that spares the locks keeps each of them. -/
theorem KeepsAllBut.lock {l : Parts} {s t : State} (h : KeepsAllBut l s t) (hl : Part.locks ∉ l) (n : Nat) :
    t.lock n = s.lock n :=
  congrArg (SMap.get LockSt.reset · n) (h .locks hl)

/-- A decision on a command changes no lock. -/
@[simp] theorem State.done_lock (s : State) (h : Hdr) (st d r0 r1) (n : Nat) : (s.done h st d r0 r1).lock n = s.lock n :=
  (keeps_done s h st d r0 r1).lock (by simp) n

/-- A frame that spares the contexts keeps each of them. -/
theorem KeepsAllBut.ctx {l : Parts} {s t : State} (h : KeepsAllBut l s t) (hl : Part.contexts ∉ l) (c : Nat) :
    t.ctx c = s.ctx c :=
  congrArg (SMap.get (fun _ => Ctx.reset) · c) (h .contexts hl)

/-- Whether a lock is free is read from the locks and, for the owner's epoch, the contexts (R295). -/
theorem KeepsAllBut.lockFree {l : Parts} {s t : State} (h : KeepsAllBut l s t) (hlocks : Part.locks ∉ l)
    (hctxs : Part.contexts ∉ l) (n : Nat) : t.lockFree n = s.lockFree n := by
  simp only [State.lockFree, h.lock hlocks, h.ctx hctxs]

/-- A lock without an owner is free. -/
theorem State.lockFree_of_no_owner {s : State} {n : Nat} (h : (s.lock n).owner = 31) : s.lockFree n = true := by
  simp [State.lockFree, h]

/-- The lock as UNLOCK by its owner leaves it (R294). -/
def LockSt.unlocked (l : LockSt) (validate : Byte) : LockSt :=
  { l with owner := 31, suspect := l.suspect && decide (validate ≠ 1) }

/-- SUSPECT is cleared where VALIDATE = 1 and else stays (R294). -/
theorem LockSt.unlocked_suspect (l : LockSt) (validate : Byte) :
    (l.unlocked validate).suspect = if validate = 1 then false else l.suspect := by
  by_cases h : validate = 1
  · simp [LockSt.unlocked, h]
  · simp only [LockSt.unlocked, h, ne_eq, not_false_eq_true, decide_true, Bool.and_true, if_false]

/-- What a served UNLOCK does once it has begun: the owner's frees the lock, any other is refused (R294). -/
theorem exec_unlock {s : State} {h : Hdr} {n validate : Byte} (hserves : Serves s (.unlock h n validate) h anyRec)
    (htarget : h.target = 0) (hn : n.toNat < 64) (hvalidate : validate.toNat < 2) :
    exec (.unlock h n validate) s = .next
      (if s.lockFree n.toNat = true ∨ (s.lock n.toNat).owner ≠ ctxOfQueue h.sq then (s.begin h 0x23).done h stNotOwner
        else ((s.begin h 0x23).setLock n.toNat ((s.lock n.toNat).unlocked validate)).done h stOk) := by
  have hbegin := keeps_begin s h 0x23
  have hwf : (decide (n.toNat < 64) && decide (validate.toNat < 2)) = true := by simp [hn, hvalidate]
  have hexec : exec (.unlock h n validate) s = execUnlock h n validate s := rfl
  rw [hexec, execUnlock, hwf, queueCmd_serves s hserves rfl]
  simp only [htarget, ne_eq, not_true_eq_false, if_false, State.updLock_eq, hbegin.lock (by simp),
    hbegin.lockFree (by simp) (by simp), Bool.or_eq_true, decide_eq_true_eq]
  rfl

/-- Settles O54: the begun UNLOCK takes the branch that the lock's owner gives, and its decision leaves the locks alone. -/
theorem unlockIsForTheOwner : Obligations.UnlockIsForTheOwner := by
  unfold Obligations.UnlockIsForTheOwner
  intro h n validate s hserves htarget hn hvalidate
  have hexec := exec_unlock hserves htarget hn hvalidate
  have hbegun := s.begun_begin h 0x23
  refine ⟨fun hheld howner => ?_, fun hother => ?_⟩
  · rw [if_neg (by simp [hheld, howner])] at hexec
    refine ⟨_, hexec, decided_done ((s.begin h 0x23).setLock _ _) hbegun stOk 0 0 0, State.lockFree_of_no_owner ?_, ?_⟩
    · simp [LockSt.unlocked]
    · simp [LockSt.unlocked_suspect]
  · rw [if_pos hother] at hexec
    exact ⟨_, hexec, decided_done _ hbegun stNotOwner 0 0 0, (keeps_begin s h 0x23).trans (keeps_done _ h stNotOwner 0 0 0)⟩

end Sys2Proof.Machine

/-! Umpire (spec/12): a DEVICE_SAFE source in the fault state keeps the device in SAFE, whatever mode MODE_SET asks for (R305,
R335 to R339). -/

namespace Sys2Proof.Machine

/-- What a table reads at a key is listed there or the default of the key. -/
theorem SMap.get_mem_or_eq_default {α : Type} (d : Nat → α) (m : SMap α) (k : Nat) :
    (k, SMap.get d m k) ∈ m ∨ SMap.get d m k = d k := by
  induction m with
  | nil => exact .inr rfl
  | cons x r ih =>
    by_cases hk : x.1 = k
    · exact .inl (by simp [SMap.get, ← hk])
    · simpa [SMap.get, hk, Ne.symm hk] using ih.imp_left (List.mem_cons_of_mem x)

/-- A source at reset is CLEAR, so a source in the fault state is among those that the state lists (R298). -/
theorem State.src_mem_of_faulty {s : State} {n : Nat} (hfault : (s.src n).faulty = true) : (n, s.src n) ∈ s.umpSrcs :=
  (SMap.get_mem_or_eq_default UmpSrc.reset s.umpSrcs n).resolve_right fun (hreset : s.src n = UmpSrc.reset n) => by
    rw [hreset] at hfault
    cases hfault

/-- One faulty source whose action is DEVICE_SAFE suffices (R305). -/
theorem State.safeSource_of_src {s : State} {n : Nat} (hfault : (s.src n).faulty = true) (haction : (s.src n).action = 2) :
    s.safeSource = true :=
  List.any_eq_true.2 ⟨_, State.src_mem_of_faulty hfault, by simp [hfault, haction]⟩

/-- SAFE is shown exactly where it is the base mode, whatever the engines do (R22). -/
theorem State.mode_eq_safe_iff {s : State} : s.mode = .safe ↔ s.dev.base = .safe := by
  unfold State.mode
  cases s.dev.base
  case dock | run | hold => split_ifs <;> simp
  all_goals simp

/-- A frame that spares the device mode keeps SAFE. -/
theorem KeepsAllBut.mode_safe {l : Parts} {s t : State} (h : KeepsAllBut l s t) (hl : Part.modeState ∉ l)
    (hsafe : s.mode = .safe) : t.mode = .safe := by
  obtain ⟨hbase, -, -⟩ := h .modeState hl
  exact State.mode_eq_safe_iff.2 (hbase.trans (State.mode_eq_safe_iff.1 hsafe))

/-- A frame that spares the sources keeps whether one of them holds SAFE. -/
theorem KeepsAllBut.safeSource {l : Parts} {s t : State} (h : KeepsAllBut l s t) (hl : Part.umpSrcs ∉ l) :
    t.safeSource = s.safeSource :=
  congrArg (List.any · _) (h .umpSrcs hl)

section
variable {s : State} (h : Hdr) (hsafe : s.mode = .safe) (hsrc : s.safeSource = true)
include hsafe

/-- No Survey begins in SAFE (R335). -/
theorem State.modeSurvey_of_safe : s.modeSurvey h = s.done h stNotReady := by simp [State.modeSurvey, hsafe]

include hsrc

/-- MODE_SET DOCK does not leave SAFE while a source holds it (R305). -/
theorem State.modeDock_of_safeSource : s.modeDock h = s.done h stNotReady := by
  simp [State.modeDock, State.mayLeaveSafe, hsafe, hsrc]

/-- MODE_SET STOP does not leave SAFE either (log entry 50). -/
theorem State.modeStop_of_safeSource : s.modeStop h = s.done h stNotReady := by simp [State.modeStop, hsafe, hsrc]

end

/-- A served MODE_SET to another mode than SAFE only has its NOT_READY decided while a source holds SAFE (R305). -/
theorem exec_modeSet_of_safeSource {s : State} {h : Hdr} {m : Byte}
    (hserves : Serves s (.modeSet h m) h (fun r => bit r.perms 6)) (hsafe : s.mode = .safe) (hsrc : s.safeSource = true)
    (hm : m ∈ [(0 : Byte), 2, 4, 5, 6]) :
    exec (.modeSet h m) s = .next ((s.begin h 0x39).done h stNotReady) := by
  have hbegin := keeps_begin s h 0x39
  have hsafe' : (s.begin h 0x39).mode = .safe := hbegin.mode_safe (by simp) hsafe
  have hsrc' : (s.begin h 0x39).safeSource = true := (hbegin.safeSource (by simp)).trans hsrc
  have hexec : exec (.modeSet h m) s = execModeSet h m s := rfl
  have hwf : ∀ m ∈ [(0 : Byte), 2, 4, 5, 6], decide (m.toNat < 8) = true := by decide
  rw [hexec, execModeSet, hwf m hm, queueCmd_serves s hserves rfl]
  generalize s.begin h 0x39 = u at hsafe' hsrc' ⊢
  simp only [List.mem_cons, List.not_mem_nil, or_false] at hm
  obtain rfl | rfl | rfl | rfl | rfl := hm
  · simp [u.modeStop_of_safeSource h hsafe' hsrc']
  · simp [u.modeDock_of_safeSource h hsafe' hsrc']
  · simp [hsafe']
  · simp [u.modeSurvey_of_safe h hsafe']
  · simp [hsafe']

/-- Settles O55: every mode asked for ends in the same refusal, whose decision keeps the mode and all but the host's commands. -/
theorem deviceSafeSourceHoldsSafe : Obligations.DeviceSafeSourceHoldsSafe := by
  unfold Obligations.DeviceSafeSourceHoldsSafe
  intro h m s n hserves hsafe hfault haction hm
  have hkeeps := (keeps_begin s h 0x39).trans (keeps_done (s.begin h 0x39) h stNotReady 0 0 0)
  exact ⟨_, exec_modeSet_of_safeSource hserves hsafe (State.safeSource_of_src hfault haction) hm,
    decided_done _ (s.begun_begin h 0x39) stNotReady 0 0 0, hkeeps.mode_safe (by simp) hsafe, hkeeps⟩

end Sys2Proof.Machine
